-- ==== Sys2Proof/Word.lean ====
section
/-! DEFINITION. The byte, the one machine word of the PVS24: every request, response and record is a sequence of bytes
(R203, R205). -/

namespace Sys2Proof

/-- One byte as it passes through a port. -/
abbrev Byte := BitVec 8

/-- A number carried in one byte (R205). -/
abbrev byteOf (n : Nat) : Byte := BitVec.ofNat 8 n

end Sys2Proof
end

