-- ==== Sys2Proof/Config.lean ====
section
/-! DEFINITION. The sizes the manual fixes for every PVS24, and the index types they give.

The manual leaves no VALUE open: each effect it describes is stated for every operand, so this file declares no free value
(notes/assumptions/1.md). What the manual leaves to the outside world (the order in which two arrivals are taken, the
moments of timer expiries, pin levels) comes in through the queue of events and its operands. -/

namespace Sys2Proof

/-- A slot of the schedule table, 0 to 255 (R1). -/
abbrev SlotNo := Fin 256

/-- A channel, 0 to 23 (R92). -/
abbrev Chan := Fin 24

/-- An override input, 0 to 7 (R134). -/
abbrev InputNo := Fin 8

namespace Config

/-- A claim list holds at most 8 claims (R92). -/
def claimCapacity : Nat := 8

/-- The exception date set holds at most 32 records (R26). -/
def dateCapacity : Nat := 32

/-- LIST_DATES returns at most 12 records (R36). -/
def datePage : Nat := 12

/-- FIND_ENTRIES returns at most 24 pairs (R87). -/
def findPage : Nat := 24

/-- READ_CHANNEL returns at most three claim reports (R131). -/
def claimPage : Nat := 3

/-- A frame's payload is at most 60 bytes (R203). -/
def maxPayload : Nat := 60

/-- A label holds at most 12 characters (R11). -/
def maxLabel : Nat := 12

/-- The three kind bytes: SUBMIT, FETCH and POLL (R187). -/
def kindSubmit : Byte := 0xA1
def kindFetch : Byte := 0xA2
def kindPoll : Byte := 0xA3

end Config

end Sys2Proof
end

