-- ==== Sys2Proof/Syntax.lean ====
section
/-! DEFINITION. The commands of the block: one constructor of `Instr` per row of spec/opcode_table.json. A row is one step of
the part, whole and indivisible (spec/95): a transaction on a port, the owner's taking of a request, a step of the engine or
of a wipe, a timer expiry, a pin event or a supply event.

A host command's arguments are not operands of its row: they stand in the request frame that the named port's slot holds
(R191), so the row's operand is the port. -/

namespace Sys2Proof

/-- The two ports (R186); also the owner of an entry (R13). -/
inductive Port where
  | main
  | panel
  deriving DecidableEq, Repr

/-- The source of a claim: ENTRY s, INPUT k, PORT MAIN or PORT PANEL (R93). -/
inductive Source where
  | entry (s : SlotNo)
  | input (k : InputNo)
  | port (p : Port)
  deriving DecidableEq, Repr

inductive Instr where
  -- Port transactions (chapter 11)
  /-- A SUBMIT kind byte completes on port `p` (R188, R189). -/
  | submit (p : Port)
  /-- The bytes of a request frame arrive on port `p`, up to and past its last byte (R188). -/
  | requestFrame (p : Port) (bytes : List Byte)
  /-- A SUBMIT transaction on `p` ends before its frame is whole (R190, R197). -/
  | submitTruncated (p : Port)
  /-- A FETCH on `p`; `n` bytes follow the kind byte, clocked by the main host or written by the panel controller (R192, R196). -/
  | fetch (p : Port) (n : Nat)
  /-- A POLL on `p`; `n` bytes follow the kind byte, clocked by the main host or written by the panel controller (R193, R196). -/
  | poll (p : Port) (n : Nat)
  /-- The kind byte `kind`, unknown to the part, on `p`, and `n` further bytes of its transaction (R194, R196). -/
  | badKind (p : Port) (kind : Byte) (n : Nat)
  /-- A read transaction of `n` bytes on the panel port (R196). -/
  | panelRead (n : Nat)
  -- Requests taken by their owners: the request is the one the slot of port `p` holds PENDING (R191)
  | readClock (p : Port)
  | setClock (p : Port)
  | snapMinute (p : Port)
  | addDate (p : Port)
  | removeDate (p : Port)
  | listDates (p : Port)
  | addEntry (p : Port)
  | readEntry (p : Port)
  | modifyEntry (p : Port)
  | suspendEntry (p : Port)
  | resumeEntry (p : Port)
  | deleteEntry (p : Port)
  | findEntries (p : Port)
  | wipeTable (p : Port)
  /-- One slot step of the wipe in progress, at the wipe's own cursor (R88). -/
  | wipeSlot
  /-- The wipe completes; the waiting table commands of the ports in `takes` are taken, in that order (R65, R71). -/
  | wipeComplete (takes : List Port)
  | configureChannel (p : Port)
  | readChannel (p : Port)
  | forceChannel (p : Port)
  | releaseChannel (p : Port)
  | clearFault (p : Port)
  | bindInput (p : Port)
  | readInput (p : Port)
  | nextCause (p : Port)
  | nextEntryNotice (p : Port)
  | configureAttention (p : Port)
  | takeChannelNotice (p : Port)
  | takeInputEvents (p : Port)
  | ackClock (p : Port)
  | setPanelPolicy (p : Port)
  -- Clock and engine steps
  | secondBoundary
  /-- The sweep's visit to the slot its cursor names (R41). -/
  | sweepVisit
  | sweepComplete
  /-- The resync's visit to the slot its cursor names (R55). -/
  | resyncVisit
  /-- The resync completes; the waiting table commands of the ports in `takes` are taken, in that order (R62, R71). -/
  | resyncComplete (takes : List Port)
  -- Timers
  | eventCountdownEnd (slot : SlotNo)
  /-- The TIMED claim of `source` on channel `c` runs out (R102). -/
  | timedExpiry (c : Chan) (source : Source)
  | guardExpiry (c : Chan)
  | proofTimerExpiry (c : Chan)
  | senseChange (c : Chan) (high : Bool)
  | pulsePhaseEnd (c : Chan)
  | inputPinChange (k : InputNo) (high : Bool)
  | debounceExpiry (k : InputNo)
  | irqnPulseEnd
  -- Crystal, reset and supply
  | crystalEdge
  | crystalTrusted
  | crystalGap
  | rstnLow
  /-- RSTN rises; `adsel` is the level of ADSEL at that moment (R181, R195). -/
  | mainResetEnd (adsel : Bool)
  | vmainLost
  /-- VMAIN appears; `adsel` is the level of ADSEL when the main reset it causes ends (R181, R195). -/
  | vmainReturns (adsel : Bool)
  | vbakAppears
  | vbakLost
  | csnRises
  | startCondition
  deriving DecidableEq, Repr

end Sys2Proof
end

