-- ==== Sys2Proof/Decode.lean ====
section
/-! DEFINITION. spec/opcode_table.json gives none of its rows any bits: no row has an encoding as a word, so no word spells a
command. What a host does send begins with a kind byte, which says which transaction it is (R187); request frames and payloads
are decoded where they arrive, in Sys2Proof/Machine/Operands.lean and Sys2Proof/Machine/Ports.lean. -/

namespace Sys2Proof

/-- The command a word spells by the table's bits: no row of the table has bits, so there is none. -/
def decodeTableWord (_nbits _w : Nat) : Option Instr :=
  none

/-! ### Kind bytes (R187) -/

/-- The transactions a kind byte can name. -/
inductive TransactionKind where
  | submit
  | fetch
  | poll
  deriving DecidableEq, Repr

/-- The kind byte of a transaction: 0xA1, 0xA2 and 0xA3 (R187). -/
def TransactionKind.code : TransactionKind → Byte
  | .submit => Config.kindSubmit
  | .fetch => Config.kindFetch
  | .poll => Config.kindPoll

/-- The transaction that a kind byte names, if the part knows it (R187, R194). -/
def kindOf (b : Byte) : Option TransactionKind :=
  if b = TransactionKind.submit.code then some .submit
  else if b = TransactionKind.fetch.code then some .fetch
  else if b = TransactionKind.poll.code then some .poll
  else none

/-- The row of a transaction on port `p` that begins with the byte `b` and in which `n` further bytes are clocked; the frame bytes
of a SUBMIT are a row of their own (R187, R188, R194). -/
def transactionOf (p : Port) (b : Byte) (n : Nat) : Instr :=
  match kindOf b with
  | some .submit => .submit p
  | some .fetch => .fetch p n
  | some .poll => .poll p n
  | none => .badKind p b n

end Sys2Proof
end

