-- ==== Sys2Proof/Machine/State.lean ====
section
/-! DEFINITION. Everything the manual gives the part, block by block, as plain data, and the machine right after its first
power-up. Each field's comment names the rule it comes from; INVENTORY.md lists them with their reset values. -/

namespace Sys2Proof.Machine

/-! ### Dates and times (R150, R206) -/

/-- A date: year 0 to 99 (2000 to 2099), month 1 to 12, day 1 to the month's length. -/
structure Date where
  year : Nat
  month : Nat
  day : Nat
  deriving DecidableEq, Repr

/-- A minute of the day. -/
structure DayMinute where
  hour : Nat
  minute : Nat
  deriving DecidableEq, Repr

/-- A date and a minute of it: a minute boundary, an occurrence stamp, an end due. -/
structure Minute where
  date : Date
  time : DayMinute
  deriving DecidableEq, Repr

/-- A date and time with seconds: the captured time T of a resync (R54). -/
structure Moment where
  date : Date
  time : DayMinute
  second : Nat
  deriving DecidableEq, Repr

/-- The calendar clock (R150). -/
structure Clock where
  date : Date
  hour : Nat
  minute : Nat
  second : Nat
  valid : Bool
  deriving DecidableEq, Repr

inductive TimebaseState where
  | off
  | starting
  | running
  | failed
  deriving DecidableEq, Repr

/-- The timebase (R148, R149). `subSecond` is the part of the current second that has passed, in 10 ms (0 to 99, or
100 when the second is complete and its boundary still to be taken, notes/assumptions/5.md); `tickPhase` is the number of 10 ms ticks since the last 100 ms tick (0 to 9). -/
structure Timebase where
  state : TimebaseState
  subSecond : Nat
  tickPhase : Nat
  deriving DecidableEq, Repr

/-! ### Exception dates (R26 to R28) -/

inductive DayType where
  | holiday
  | specialA
  | specialB
  deriving DecidableEq, Repr

/-- The ten day classes (R27): a weekday, Monday 0 to Sunday 6, or a day type. -/
inductive DayClass where
  | weekday (n : Fin 7)
  | special (t : DayType)
  deriving DecidableEq, Repr

structure DateRecord where
  date : Date
  dayType : DayType
  deriving DecidableEq, Repr

/-- The exception date set: its records in ascending order of date, and today's day class (R26, R28). -/
structure DateSet where
  records : List DateRecord
  today : DayClass
  deriving DecidableEq, Repr

/-! ### Schedule entries (chapter 1) -/

/-- A pulse shape: on width and off width in 10 ms, and the burst (R6). -/
structure Shape where
  onWidth : Byte
  offWidth : Byte
  burst : Byte
  deriving DecidableEq, Repr

inductive Action where
  | off
  | on
  | pulse (shape : Shape)
  deriving DecidableEq, Repr

/-- The kind with the one field that belongs to it: a SPAN's end, an EVENT's duration in seconds (R3, R5). -/
inductive Kind where
  | span (stop : DayMinute)
  | event (duration : Nat)
  deriving DecidableEq, Repr

/-- The definition fields (R2). The day set has bit c set for the day class of code c (R206); notify has the bits of the
entry causes. -/
structure Definition where
  kind : Kind
  channel : Chan
  priority : Nat
  daySet : BitVec 10
  start : DayMinute
  action : Action
  fromDate : Option Date
  untilDate : Option Date
  budget : Option Byte
  catchUp : Bool
  notify : BitVec 5
  autofree : Bool
  guarded : Bool
  label : List Byte
  deriving DecidableEq, Repr

/-- The states of a slot that holds an entry; an EMPTY slot holds none (R14). -/
inductive EntryState where
  | armed
  | active
  | suspended
  | spent
  deriving DecidableEq, Repr

/-- An entry: its definition and the runtime fields of section 1.3. `rejoin` is the rejoin flag that admission due carries
(R52). -/
structure Entry where
  defn : Definition
  owner : Port
  state : EntryState
  remBudget : Option Byte
  held : Bool
  stamp : Option Minute
  interrupted : Bool
  final : Bool
  endDue : Option Minute
  remSeconds : Nat
  admissionDue : Bool
  rejoin : Bool
  deriving DecidableEq, Repr

/-- A slot: its generation, kept when it is EMPTY, and its entry if it has one (R14, R23). -/
structure Slot where
  gen : Byte
  entry : Option Entry
  deriving DecidableEq, Repr

/-! ### Evaluation engine (section 3.1) -/

/-- The skipped interval of a resync: the minutes of T's date from `first` to `last`, counted from 00:00; empty when `first`
is above `last` (R54). -/
structure Skipped where
  first : Nat
  last : Nat
  deriving DecidableEq, Repr

/-- The work in flight with what it holds (R38, R54). -/
inductive Work where
  | idle
  | sweep (minute : Minute) (cursor : Nat)
  | resync (captured : Moment) (skipped : Skipped) (cursor : Nat)
  deriving DecidableEq, Repr

/-- A WIPE_TABLE in progress: the port that sent it and the next slot it takes (R88). -/
structure Wipe where
  port : Port
  cursor : Nat
  deriving DecidableEq, Repr

structure Engine where
  work : Work
  resyncRequested : Bool
  boundaryNoted : Bool
  lastEvaluated : Option Minute
  wipe : Option Wipe
  deriving DecidableEq, Repr

/-! ### Channel arbiter (chapter 5) -/

/-- A claim's lifetime; a TIMED claim carries its minutes and its remaining seconds (R93). -/
inductive Lifetime where
  | entry
  | momentary
  | timed (minutes remaining : Nat)
  | untilEdge
  | latch
  deriving DecidableEq, Repr

/-- A claim (R93). `order` carries the placement order: among the claims of one list the greater order was placed later. -/
structure Claim where
  source : Source
  priority : Nat
  action : Action
  lifetime : Lifetime
  order : Nat
  deriving DecidableEq, Repr

/-- A top claim as it is reported: source, priority and action with its shape (R109). -/
structure Top where
  source : Source
  priority : Nat
  action : Action
  deriving DecidableEq, Repr

/-- The claim lists, the tops last reported, and the record of channels whose lists changed in a batch (R68, R109). -/
structure Arbiter where
  lists : Vector (List Claim) 24
  lastTop : Vector (Option Top) 24
  changed : Vector Bool 24
  deriving DecidableEq, Repr

/-! ### Output stage (chapter 6) -/

/-- The seven settings of a channel (R113). The drive polarity is ACTIVE_LOW when `activeLow` is set, the fallback action is
ON when `fallbackOn` is set, the sense polarity is INVERTED_SENSE when `invertedSense` is set. -/
structure ChannelConfig where
  enabled : Bool
  activeLow : Bool
  fallbackOn : Bool
  guardTime : Byte
  proofEnable : Bool
  proofTime : Byte
  invertedSense : Bool
  deriving DecidableEq, Repr

inductive ChannelState where
  | disabled
  | normal
  | guarding
  | faulted
  deriving DecidableEq, Repr

inductive Wave where
  | steady
  | onPhase
  | offPhase
  | resting
  deriving DecidableEq, Repr

inductive Proof where
  | idle
  | settling
  | agree
  | disagree
  | fault
  deriving DecidableEq, Repr

/-- A channel's runtime record. `guard` and `proofTicks` are the remaining 100 ms ticks of the guard and proof timers,
`phaseTicks` the remaining 10 ms ticks of the pulse phase. A timer that runs (the guard in GUARDING, the proof timer in SETTLING
and DISAGREE, the phase in ON_PHASE and OFF_PHASE) expires when none is left (R121); an idle timer holds 0. -/
structure ChannelRun where
  state : ChannelState
  commanded : Action
  pending : Option Action
  guard : Nat
  wave : Wave
  phaseTicks : Nat
  cycles : Byte
  proof : Proof
  proofTicks : Nat
  deriving DecidableEq, Repr

/-! ### Input unit (section 7.1) -/

inductive Mode where
  | momentary
  | timed (minutes : Nat)
  | toggle
  | untilEdge
  deriving DecidableEq, Repr

/-- A binding (R135). The active level is LOW_ACTIVE when `lowActive` is set; bit c of the mask names channel c. -/
structure Binding where
  enabled : Bool
  lowActive : Bool
  debounce : Byte
  mask : BitVec 24
  action : Action
  priority : Nat
  mode : Mode
  deriving DecidableEq, Repr

/-- An input's runtime: the stable level (true is HIGH), the ticks left of the debounce timer while it runs (none is idle, and
it expires when none of its ticks is left, R137) and the two latches. -/
structure InputRun where
  stable : Bool
  debounceLeft : Option Nat
  pressSeen : Bool
  releaseSeen : Bool
  deriving DecidableEq, Repr

/-! ### Attention unit (section 9.5) -/

inductive IrqMode where
  | level
  | pulse
  deriving DecidableEq, Repr

inductive TickPeriod where
  | off
  | second
  | minute
  | hour
  | day
  deriving DecidableEq, Repr

structure GroupConfig where
  enabled : Bool
  level : Nat
  deriving DecidableEq, Repr

/-- The attention unit. A slot is a member of the entry notice set when its causes are not empty, and a channel of the
channel notice set likewise (R165, R168). The groups stand in the order ENTRY, CHANNEL, INPUT, CLOCK, PORT. `pulse` tells
that a 50 µs pulse is being driven (R175). -/
structure Attention where
  entryNotices : Vector (BitVec 5) 256
  channelNotices : Vector (BitVec 2) 24
  tickCause : Bool
  invalidCause : Bool
  groups : Vector GroupConfig 5
  irqMode : IrqMode
  tickPeriod : TickPeriod
  pulse : Bool
  deriving DecidableEq, Repr

/-! ### Ports (chapter 11) -/

structure Request where
  tag : Byte
  code : Byte
  payload : List Byte
  deriving DecidableEq, Repr

/-- The request slot with what it holds (R186). -/
inductive PortSlot where
  | idle
  | receiving (bytes : List Byte)
  | pending (request : Request)
  | ready (frame : List Byte)
  deriving DecidableEq, Repr

/-- A port: its slot, its three sticky flags, whether it has regained its footing since the last main reset (R202), and the
bytes it gave out in the latest transaction (the pin's output, the model's own field). -/
structure PortState where
  slot : PortSlot
  refused : Bool
  truncated : Bool
  badKind : Bool
  listening : Bool
  shifted : List Byte
  deriving DecidableEq, Repr

inductive Selection where
  | fetch
  | poll
  deriving DecidableEq, Repr

/-- What the panel port has beside its slot and flags: the read selection (R196), the address it answers at (R195), and the
acknowledgements it gave in the latest write transaction, address first (the pin's output, the model's own field). -/
structure PanelBus where
  selection : Option Selection
  address : BitVec 7
  acks : List Bool
  deriving DecidableEq, Repr

/-! ### Supply and pins (chapter 10) -/

inductive Supply where
  | cold
  | backup
  | normal
  deriving DecidableEq, Repr

/-- The levels that reach the part from outside: IN0 to IN7, SN0 to SN23 (true is high), whether RSTN is low and whether
VBAK is present. -/
structure Pins where
  inputs : Vector Bool 8
  senses : Vector Bool 24
  rstnLow : Bool
  vbak : Bool
  deriving DecidableEq, Repr

/-! ### The machine -/

/-- The whole part. `inReset` holds during a main reset on NORMAL supply (R181). The panel policy has the bits CALENDAR,
OTHERS, FORCE, CONFIG (R199, R206). `pending` is the queue of commands that are waiting, first in first out. -/
structure State where
  supply : Supply
  inReset : Bool
  pins : Pins
  timebase : Timebase
  clock : Clock
  dates : DateSet
  table : Vector Slot 256
  engine : Engine
  arbiter : Arbiter
  configs : Vector ChannelConfig 24
  channels : Vector ChannelRun 24
  bindings : Vector Binding 8
  inputs : Vector InputRun 8
  attention : Attention
  mainPort : PortState
  panelPort : PortState
  panelBus : PanelBus
  policy : BitVec 4
  pending : List Instr
  deriving DecidableEq, Repr

/-- The reasons a command can stop the machine: there is none. The manual gives every command an effect in every state (an
event that its rule does not allow does not happen: notes/assumptions/2.md). Safe. -/
inductive Fault where
  deriving DecidableEq, Repr

/-- The reasons a command has no meaning. -/
inductive Refusal where
  /-- The command's row is not modelled: raised by `exec`'s arm for that row alone. Safe. No row is left so. -/
  | notModelled (mnemonic : String)
  deriving DecidableEq, Repr

/-! ### Values after reset -/

/-- A slot at cold start: EMPTY with generation 0 (R25). -/
def Slot.cold : Slot :=
  { gen := 0, entry := none }

/-- The settings of a channel at cold start (R132). -/
def ChannelConfig.cold : ChannelConfig :=
  { enabled := false, activeLow := false, fallbackOn := false, guardTime := 0, proofEnable := false, proofTime := 10,
    invertedSense := false }

/-- A binding at cold start (R147). -/
def Binding.cold : Binding :=
  { enabled := false, lowActive := true, debounce := 5, mask := 0, action := .off, priority := 9, mode := .momentary }

/-- The calendar clock at cold start: 2000-01-01 00:00:00, INVALID (R163). -/
def Clock.cold : Clock :=
  { date := { year := 0, month := 1, day := 1 }, hour := 0, minute := 0, second := 0, valid := false }

/-- The timebase at cold start (R163). -/
def Timebase.cold : Timebase :=
  { state := .off, subSecond := 0, tickPhase := 0 }

/-- The exception date set at cold start: empty, and today's class that of 2000-01-01, a Saturday (R37). -/
def DateSet.cold : DateSet :=
  { records := [], today := .weekday 5 }

/-- The engine at cold start (R69), with no wipe in progress (R91). -/
def Engine.cold : Engine :=
  { work := .idle, resyncRequested := false, boundaryNoted := false, lastEvaluated := none, wipe := none }

/-- The arbiter after a main reset (R112). -/
def Arbiter.reset : Arbiter :=
  { lists := Vector.replicate 24 [], lastTop := Vector.replicate 24 none, changed := Vector.replicate 24 false }

/-- A disabled channel's runtime after a main reset, with fallback OFF: the one that the cold start settings give (R133). -/
def ChannelRun.cold : ChannelRun :=
  { state := .disabled, commanded := .off, pending := none, guard := 0, wave := .steady, phaseTicks := 0, cycles := 0,
    proof := .idle, proofTicks := 0 }

/-- The attention unit after a main reset (R176). -/
def Attention.reset : Attention :=
  { entryNotices := Vector.replicate 256 0, channelNotices := Vector.replicate 24 0, tickCause := false,
    invalidCause := false, groups := Vector.replicate 5 { enabled := false, level := 0 }, irqMode := .level,
    tickPeriod := .off, pulse := false }

/-- A port after a main reset: IDLE, its flags clear, waiting for its footing (R202). -/
def PortState.reset : PortState :=
  { slot := .idle, refused := false, truncated := false, badKind := false, listening := false, shifted := [] }

/-- The panel port's read selection and acknowledgements after a main reset; the address is the one ADSEL low selects. -/
def PanelBus.reset : PanelBus :=
  { selection := none, address := 0x2C, acks := [] }

/-- An input's runtime after a main reset that ends with its pin at the level `high` (R147). -/
def InputRun.atLevel (high : Bool) : InputRun :=
  { stable := high, debounceLeft := none, pressSeen := false, releaseSeen := false }

/-- The levels outside the part at power-up: IN pins high, SN pins low, RSTN high, VBAK present
(notes/assumptions/3.md). -/
def Pins.powerUp : Pins :=
  { inputs := Vector.replicate 8 true, senses := Vector.replicate 24 false, rstnLow := false, vbak := true }

/-- The machine right after its first power-up: VMAIN has appeared in COLD, the cold start and the main reset have taken
place, and the restart has found the clock INVALID and raised INVALID (R180, R181, R182; notes/assumptions/4.md). -/
def State.reset : State :=
  { supply := .normal, inReset := false, pins := Pins.powerUp, timebase := Timebase.cold, clock := Clock.cold,
    dates := DateSet.cold, table := Vector.replicate 256 Slot.cold, engine := Engine.cold, arbiter := Arbiter.reset,
    configs := Vector.replicate 24 ChannelConfig.cold, channels := Vector.replicate 24 ChannelRun.cold,
    bindings := Vector.replicate 8 Binding.cold, inputs := Vector.replicate 8 (InputRun.atLevel true),
    attention := { Attention.reset with invalidCause := true }, mainPort := PortState.reset,
    panelPort := PortState.reset, panelBus := PanelBus.reset, policy := 0, pending := [] }

end Sys2Proof.Machine
end

