-- ==== Sys2Proof/Machine/Calendar.lean ====
section
/-! DEFINITION. The calendar: month lengths, the next date, weekdays, the order of dates and times, occurrence windows and the
skipped interval of a resync (R7, R21, R27, R54, R150, R151). -/

namespace Sys2Proof.Machine

/-- A year, 0 to 99, is a leap year when it is divisible by 4 (R151). -/
def isLeap (year : Nat) : Bool :=
  year % 4 == 0

/-- The length of a month (R151); 0 for a number that is no month. -/
def monthLength (year month : Nat) : Nat :=
  match month with
  | 1 => 31
  | 2 => if isLeap year then 29 else 28
  | 3 => 31
  | 4 => 30
  | 5 => 31
  | 6 => 30
  | 7 => 31
  | 8 => 31
  | 9 => 30
  | 10 => 31
  | 11 => 30
  | 12 => 31
  | _ => 0

/-- A possible date in the years 2000 to 2099 (R7, R34). -/
def Date.possible (d : Date) : Bool :=
  decide (d.year ≤ 99 ∧ 1 ≤ d.month ∧ d.month ≤ 12 ∧ 1 ≤ d.day ∧ d.day ≤ monthLength d.year d.month)

/-- A number that orders dates as the calendar does, from 2000-01-01 to 2099-12-31 (R151). -/
def Date.key (d : Date) : Nat :=
  (d.year * 13 + d.month) * 32 + d.day

/-- `d` is before `e` in calendar order (R151). -/
def Date.before (d e : Date) : Bool :=
  decide (d.key < e.key)

/-- The date that follows, 2099-12-31 being followed by 2000-01-01 (R151). -/
def Date.next (d : Date) : Date :=
  if d.day < monthLength d.year d.month then { d with day := d.day + 1 }
  else if d.month < 12 then { d with month := d.month + 1, day := 1 }
  else if d.year < 99 then { year := d.year + 1, month := 1, day := 1 }
  else { year := 0, month := 1, day := 1 }

/-- The date that comes before; 2099-12-31 for 2000-01-01, as it is the date whose next one that is. -/
def Date.previous (d : Date) : Date :=
  if 1 < d.day then { d with day := d.day - 1 }
  else if 1 < d.month then { d with month := d.month - 1, day := monthLength d.year (d.month - 1) }
  else if 0 < d.year then { year := d.year - 1, month := 12, day := 31 }
  else { year := 99, month := 12, day := 31 }

/-- The days of a year that lie before the month. -/
def daysBeforeMonth (year : Nat) : Nat → Nat
  | 0 => 0
  | 1 => 0
  | m + 1 => daysBeforeMonth year m + monthLength year m

/-- The days from 2000-01-01 to `d`. -/
def Date.dayNumber (d : Date) : Nat :=
  d.year * 365 + (d.year + 3) / 4 + daysBeforeMonth d.year d.month + (d.day - 1)

/-- The weekday, Monday 0 to Sunday 6; 2000-01-01 is a Saturday (R27, R150). -/
def Date.weekday (d : Date) : Fin 7 :=
  ⟨(5 + d.dayNumber) % 7, Nat.mod_lt _ (by decide)⟩

/-- Minutes since 00:00. -/
def DayMinute.ofDay (t : DayMinute) : Nat :=
  t.hour * 60 + t.minute

/-- An hour 0 to 23 and a minute 0 to 59 (R5). -/
def DayMinute.possible (t : DayMinute) : Bool :=
  decide (t.hour ≤ 23 ∧ t.minute ≤ 59)

/-- Midnight: the minute at which a sweep does housekeeping (R41). -/
def DayMinute.midnight : DayMinute :=
  { hour := 0, minute := 0 }

/-- The clock's date and minute. -/
def Clock.now (c : Clock) : Minute :=
  { date := c.date, time := { hour := c.hour, minute := c.minute } }

/-- The clock's date and time, as a resync captures it (R54). -/
def Clock.moment (c : Clock) : Moment :=
  { date := c.date, time := { hour := c.hour, minute := c.minute }, second := c.second }

/-- The date and minute of T. -/
def Moment.minuteOf (t : Moment) : Minute :=
  { date := t.date, time := t.time }

/-- A carry out of the seconds: the minute advances with every carry into the hour and the date (R151, R161). -/
def Clock.advanceMinute (c : Clock) : Clock :=
  if c.minute < 59 then { c with minute := c.minute + 1, second := 0 }
  else if c.hour < 23 then { c with hour := c.hour + 1, minute := 0, second := 0 }
  else { c with date := c.date.next, hour := 0, minute := 0, second := 0 }

/-- The next carry out of the seconds carries the date (R151). -/
def Clock.atLastMinute (c : Clock) : Bool :=
  decide (59 ≤ c.minute ∧ 23 ≤ c.hour)

/-- One second boundary (R151). -/
def Clock.advanceSecond (c : Clock) : Clock :=
  if c.second < 59 then { c with second := c.second + 1 } else c.advanceMinute

/-! ### Day classes (R4, R27) -/

/-- The code of a day class (R206); it is also its bit in a day set. -/
def DayClass.code : DayClass → Nat
  | .weekday n => n.val
  | .special .holiday => 7
  | .special .specialA => 8
  | .special .specialB => 9

/-- The record of a date. -/
def recordFor (records : List DateRecord) (d : Date) : Option DateRecord :=
  records.find? fun r => decide (r.date = d)

/-- The day class of a date: its record's type, or its weekday (R27). -/
def dayClassOf (records : List DateRecord) (d : Date) : DayClass :=
  match recordFor records d with
  | some r => .special r.dayType
  | none => .weekday d.weekday

/-- The class of the start day `d` of a SPAN's window while the clock's date is `today`: today's class as the set holds it when `d`
is that date (R28), and otherwise the class that the records give (R4, R21, R27). When the clock's date changes while a sweep or a
resync is in flight, the sweep's or T's date is no longer today, and R54 speaks of today's class where R4 and R21 speak of the
class of D: DESIGN CHOICE, a window is judged by the class of its own start day (notes/assumptions/23.md). -/
def DateSet.classAt (dates : DateSet) (today d : Date) : DayClass :=
  if d = today then dates.today else dayClassOf dates.records d

/-! ### Occurrences and windows (R7, R21, R22) -/

/-- The class lies in the day set (R4). -/
def Definition.matchesClass (defn : Definition) (c : DayClass) : Bool :=
  defn.daySet.getLsbD c.code

/-- The start day lies within [from, until] (R7). -/
def Definition.validOn (defn : Definition) (d : Date) : Bool :=
  (match defn.fromDate with
    | none => true
    | some f => !d.before f) &&
  (match defn.untilDate with
    | none => true
    | some u => !u.before d)

/-- The until date is present and before `d` (R42, R55). -/
def Definition.pastUntil (defn : Definition) (d : Date) : Bool :=
  match defn.untilDate with
  | none => false
  | some u => u.before d

/-- A SPAN crosses midnight when its end is earlier than its start (R5). -/
def crossesMidnight (start stop : DayMinute) : Bool :=
  decide (stop.ofDay < start.ofDay)

/-- The date and minute at which the window that opens on `d` closes (R19, R21). -/
def windowClose (d : Date) (start stop : DayMinute) : Minute :=
  if crossesMidnight start stop then { date := d.next, time := stop } else { date := d, time := stop }

/-- The minute `m` lies in the window that opens on `d` at `start`: at or after the opening, before the closing (R21). A
window opens and closes with seconds 0, so a time lies in it when its minute does. -/
def inWindow (d : Date) (start stop : DayMinute) (m : Minute) : Bool :=
  if crossesMidnight start stop then
    decide ((m.date = d ∧ start.ofDay ≤ m.time.ofDay) ∨ (m.date = d.next ∧ m.time.ofDay < stop.ofDay))
  else
    decide (m.date = d ∧ start.ofDay ≤ m.time.ofDay ∧ m.time.ofDay < stop.ofDay)

/-- The stamp names the occurrence that starts on `d` at `start` (R16). -/
def stampNames (stamp : Option Minute) (d : Date) (start : DayMinute) : Bool :=
  decide (stamp = some { date := d, time := start })

/-- The start check, the admission and the resync read today's class as it stands when they read it (R28): it lies in the day set,
and the evaluation date `d` within validity (R44, R50, R59). -/
def Definition.startsToday (defn : Definition) (dates : DateSet) (d : Date) : Bool :=
  defn.matchesClass dates.today && defn.validOn d

/-- A SPAN has a window that opens on `d`, the clock's date being `today`: the class of `d` is in the day set and `d` lies within
validity (R21). -/
def Definition.startsOn (defn : Definition) (dates : DateSet) (today d : Date) : Bool :=
  defn.matchesClass (dates.classAt today d) && defn.validOn d

/-- The start date of the SPAN window that holds `m` and whose start the stamp does not name (R50, R58): a window that opened
on the date of `m` or on the date before. The clock's date is `today`. -/
def Definition.openWindow (defn : Definition) (stop : DayMinute) (stamp : Option Minute) (dates : DateSet) (today : Date)
    (m : Minute) : Option Date :=
  [m.date, m.date.previous].find? fun d =>
    defn.startsOn dates today d && inWindow d defn.start stop m && !stampNames stamp d defn.start

/-! ### The skipped interval (R54) -/

/-- `l` lies on a date earlier than `d`; a last evaluated minute on 2099-12-31 does so for 2000-01-01 (R54, R151). -/
def earlierDate (l d : Date) : Bool :=
  l.before d || (decide (l = { year := 99, month := 12, day := 31 }) && decide (d = { year := 0, month := 1, day := 1 }))

/-- The skipped interval that a resync with captured time `t` fixes from the last evaluated minute `l` (R54). -/
def skippedInterval (l : Option Minute) (t : Moment) : Skipped :=
  match l with
  | none => { first := 0, last := t.time.ofDay }
  | some m =>
    if earlierDate m.date t.date then { first := 0, last := t.time.ofDay }
    else if m.date = t.date then { first := m.time.ofDay + 1, last := t.time.ofDay }
    else { first := 1, last := 0 }

/-- The minute of T's date lies in the skipped interval (R54). -/
def Skipped.covers (k : Skipped) (t : DayMinute) : Bool :=
  decide (k.first ≤ t.ofDay ∧ t.ofDay ≤ k.last)

/-! ### The exception date set (R26, R29) -/

/-- The records dated on or after `d` (R29). -/
def retirePast (records : List DateRecord) (d : Date) : List DateRecord :=
  records.filter fun r => !r.date.before d

/-- Places a record where its date gives it, replacing the type of a record of that date where it stands (R26, R34). -/
def insertRecord (r : DateRecord) : List DateRecord → List DateRecord
  | [] => [r]
  | q :: qs =>
    if q.date = r.date then r :: qs
    else if r.date.before q.date then r :: q :: qs
    else q :: insertRecord r qs

/-- Removes the record of a date (R35). -/
def removeRecord (d : Date) (records : List DateRecord) : List DateRecord :=
  records.filter fun r => decide (r.date ≠ d)

end Sys2Proof.Machine
end

