-- ==== Sys2Proof/Machine/Operands.lean ====
section
/-! DEFINITION. Every byte layout of chapter 12: frames and their CRC, the codes of enumerated values, the records, the request
payloads of the commands, and the payloads of their responses (R203 to R209). A reader `read…` answers `none` where the
command is refused BADARG. -/

namespace Sys2Proof.Machine

/-! ### Bytes -/

/-- Byte `i` of a payload; 0 beyond its end (readers check the length first). -/
def byteAt (bytes : List Byte) (i : Nat) : Byte :=
  bytes.getD i 0

/-- Byte `i` of a payload as a number. -/
def natAt (bytes : List Byte) (i : Nat) : Nat :=
  (byteAt bytes i).toNat

/-- Two bytes at `i`, most significant first (R205). -/
def natAt2 (bytes : List Byte) (i : Nat) : Nat :=
  natAt bytes i * 256 + natAt bytes (i + 1)

/-- A number in two bytes, most significant first (R205). -/
def bytes2 (n : Nat) : List Byte :=
  [byteOf (n / 256), byteOf n]

/-- A number in three bytes, most significant first (R205). -/
def bytes3 (n : Nat) : List Byte :=
  [byteOf (n / 65536), byteOf (n / 256), byteOf n]

/-- A flag that stands alone: 0 for clear, 1 for set (R205). -/
def flagByte (b : Bool) : Byte :=
  if b then 1 else 0

/-- A flag in a bit of its own: bit `n` set or clear (R205). -/
def flagBit (b : Bool) (n : Nat) : Byte :=
  if b then byteOf (2 ^ n) else 0

/-- Reads a standalone flag; any other value is BADARG (R205). -/
def readFlag (b : Byte) : Option Bool :=
  if b = 0 then some false else if b = 1 then some true else none

/-! ### The CRC (R204) -/

/-- One of the eight shifts: towards the most significant end, with 0x07 combined in when the bit shifted out was 1. -/
def crcShift (r : Byte) : Byte :=
  if r.msb then (r <<< 1) ^^^ 0x07 else r <<< 1

/-- One byte combined into the register, then eight shifts. -/
def crcByte (r b : Byte) : Byte :=
  crcShift (crcShift (crcShift (crcShift (crcShift (crcShift (crcShift (crcShift (r ^^^ b))))))))

/-- The CRC of a run of bytes, the register starting at 0x00. -/
def crc (bytes : List Byte) : Byte :=
  bytes.foldl crcByte 0

/-! ### Status codes and frames (R203, R209) -/

/-- The statuses a response can carry (R198). -/
inductive Status where
  | ok
  | badFrame
  | unknown
  | badArg
  | notFound
  | stale
  | full
  | denied
  | noClock
  | wrongState
  deriving DecidableEq, Repr

/-- The code of a status (R209). -/
def Status.code : Status → Byte
  | .ok => 0x00
  | .badFrame => 0x01
  | .unknown => 0x02
  | .badArg => 0x03
  | .notFound => 0x04
  | .stale => 0x05
  | .full => 0x06
  | .denied => 0x07
  | .noClock => 0x08
  | .wrongState => 0x09

/-- An owner's answer to a request: a status and a payload. -/
structure Reply where
  status : Status
  payload : List Byte
  deriving DecidableEq, Repr

/-- A refusal: the status, and an empty payload (R198). -/
def Reply.refusal (status : Status) : Reply :=
  { status := status, payload := [] }

/-- OK with its result. -/
def Reply.ok (payload : List Byte) : Reply :=
  { status := .ok, payload := payload }

/-- A frame closed by its CRC. -/
def closeFrame (body : List Byte) : List Byte :=
  body ++ [crc body]

/-- A response frame: the echoed tag, the status code, the payload length, the payload and the CRC (R203). -/
def responseFrame (tag : Byte) (reply : Reply) : List Byte :=
  closeFrame ([tag, reply.status.code, byteOf reply.payload.length] ++ reply.payload)

/-- A request frame as a host sends it (R203). -/
def requestFrame (r : Request) : List Byte :=
  closeFrame ([r.tag, r.code, byteOf r.payload.length] ++ r.payload)

/-! ### Command codes (R208) -/

/-- The commands a request frame can name. -/
inductive Command where
  | readClock
  | setClock
  | snapMinute
  | addDate
  | removeDate
  | listDates
  | addEntry
  | readEntry
  | modifyEntry
  | suspendEntry
  | resumeEntry
  | deleteEntry
  | findEntries
  | wipeTable
  | configureChannel
  | readChannel
  | forceChannel
  | releaseChannel
  | clearFault
  | bindInput
  | readInput
  | nextCause
  | nextEntryNotice
  | configureAttention
  | takeChannelNotice
  | takeInputEvents
  | ackClock
  | setPanelPolicy
  deriving DecidableEq, Repr

/-- The code of a command (R208). -/
def Command.code : Command → Byte
  | .readClock => 0x10
  | .setClock => 0x11
  | .snapMinute => 0x12
  | .addDate => 0x18
  | .removeDate => 0x19
  | .listDates => 0x1A
  | .addEntry => 0x20
  | .readEntry => 0x21
  | .modifyEntry => 0x22
  | .suspendEntry => 0x23
  | .resumeEntry => 0x24
  | .deleteEntry => 0x25
  | .findEntries => 0x26
  | .wipeTable => 0x27
  | .configureChannel => 0x30
  | .readChannel => 0x31
  | .forceChannel => 0x32
  | .releaseChannel => 0x33
  | .clearFault => 0x34
  | .bindInput => 0x38
  | .readInput => 0x39
  | .nextCause => 0x40
  | .nextEntryNotice => 0x41
  | .configureAttention => 0x42
  | .takeChannelNotice => 0x43
  | .takeInputEvents => 0x44
  | .ackClock => 0x45
  | .setPanelPolicy => 0x48

/-- Every command. -/
def Command.all : List Command :=
  [.readClock, .setClock, .snapMinute, .addDate, .removeDate, .listDates, .addEntry, .readEntry, .modifyEntry,
    .suspendEntry, .resumeEntry, .deleteEntry, .findEntries, .wipeTable, .configureChannel, .readChannel, .forceChannel,
    .releaseChannel, .clearFault, .bindInput, .readInput, .nextCause, .nextEntryNotice, .configureAttention,
    .takeChannelNotice, .takeInputEvents, .ackClock, .setPanelPolicy]

/-- The command of a code, if the part knows it (R191). -/
def commandOf (code : Byte) : Option Command :=
  Command.all.find? fun c => c.code == code

/-! ### Codes of enumerated values (R206) -/

def Port.code : Port → Byte
  | .main => 0
  | .panel => 1

def EntryState.code : EntryState → Byte
  | .armed => 1
  | .active => 2
  | .suspended => 3
  | .spent => 4

/-- The state code of a slot, 0 EMPTY. -/
def Slot.stateCode (slot : Slot) : Byte :=
  match slot.entry with
  | none => 0
  | some e => e.state.code

def DayType.code : DayType → Byte
  | .holiday => 1
  | .specialA => 2
  | .specialB => 3

def readDayType (b : Byte) : Option DayType :=
  if b = 1 then some .holiday else if b = 2 then some .specialA else if b = 3 then some .specialB else none

def Action.code : Action → Byte
  | .off => 0
  | .on => 1
  | .pulse _ => 2

def Source.kindCode : Source → Byte
  | .entry _ => 0
  | .input _ => 1
  | .port _ => 2

def Source.index : Source → Byte
  | .entry s => byteOf s.val
  | .input k => byteOf k.val
  | .port p => Port.code p

def Lifetime.code : Lifetime → Byte
  | .entry => 0
  | .momentary => 1
  | .timed _ _ => 2
  | .untilEdge => 3
  | .latch => 4

def Mode.code : Mode → Byte
  | .momentary => 0
  | .timed _ => 1
  | .toggle => 2
  | .untilEdge => 3

def ChannelState.code : ChannelState → Byte
  | .disabled => 0
  | .normal => 1
  | .guarding => 2
  | .faulted => 3

def Wave.code : Wave → Byte
  | .steady => 0
  | .onPhase => 1
  | .offPhase => 2
  | .resting => 3

def Proof.code : Proof → Byte
  | .idle => 0
  | .settling => 1
  | .agree => 2
  | .disagree => 3
  | .fault => 4

def TimebaseState.code : TimebaseState → Byte
  | .off => 0
  | .starting => 1
  | .running => 2
  | .failed => 3

def Work.code : Work → Byte
  | .idle => 0
  | .sweep _ _ => 1
  | .resync _ _ _ => 2

/-- The four fields action, on width, off width, burst; the shape is zero unless the action is PULSE. -/
def Action.bytes : Action → List Byte
  | .off => [0, 0, 0, 0]
  | .on => [1, 0, 0, 0]
  | .pulse shape => [2, shape.onWidth, shape.offWidth, shape.burst]

/-- An action that may be absent: 0xFF then (R206, R207). -/
def optionalActionBytes : Option Action → List Byte
  | none => [0xFF, 0, 0, 0]
  | some a => a.bytes

/-- Reads an action with its shape: the code, then on width, off width and burst. A PULSE with a width of 0 is BADARG, and a
shape sent with OFF or ON is ignored (R6, R12). -/
def readAction (code onWidth offWidth burst : Byte) : Option Action :=
  if code = 0 then some .off
  else if code = 1 then some .on
  else if code = 2 then
    if onWidth = 0 ∨ offWidth = 0 then none else some (.pulse { onWidth, offWidth, burst })
  else none

/-! ### Dates and times (R206) -/

def Date.bytes (d : Date) : List Byte :=
  [byteOf d.year, byteOf d.month, byteOf d.day]

/-- The three bytes at `i` as a date, not yet checked. -/
def dateAt (bytes : List Byte) (i : Nat) : Date :=
  { year := natAt bytes i, month := natAt bytes (i + 1), day := natAt bytes (i + 2) }

def DayMinute.bytes (t : DayMinute) : List Byte :=
  [byteOf t.hour, byteOf t.minute]

/-- The two bytes at `i` as a minute of the day, not yet checked. -/
def dayMinuteAt (bytes : List Byte) (i : Nat) : DayMinute :=
  { hour := natAt bytes i, minute := natAt bytes (i + 1) }

def DateRecord.bytes (r : DateRecord) : List Byte :=
  r.date.bytes ++ [r.dayType.code]

/-! ### The entry descriptor (R12, R207) -/

/-- A label character (R11). -/
def labelChar (b : Byte) : Bool :=
  decide (0x20 ≤ b.toNat ∧ b.toNat ≤ 0x7E)

/-- The kind with its end or duration, from the bytes at 7 and 8 (R5, R12). -/
def readKind (isEvent : Bool) (start : DayMinute) (bytes : List Byte) : Option Kind :=
  if isEvent then
    if natAt2 bytes 7 = 0 ∨ 3600 < natAt2 bytes 7 then none else some (.event (natAt2 bytes 7))
  else
    if (dayMinuteAt bytes 7).possible ∧ dayMinuteAt bytes 7 ≠ start then some (.span (dayMinuteAt bytes 7)) else none

/-- An optional date: absent when its flag is clear, BADARG when it is present and impossible (R12). -/
def readOptionalDate (isPresent : Bool) (d : Date) : Option (Option Date) :=
  if isPresent then if d.possible then some (some d) else none else some none

/-- A from date later than the until date is BADARG (R7). -/
def datesInOrder (fromDate untilDate : Option Date) : Bool :=
  match fromDate, untilDate with
  | some f, some u => !u.before f
  | _, _ => true

/-- An optional budget: BADARG when it is marked present with value 0 (R8). -/
def readBudget (isPresent : Bool) (b : Byte) : Option (Option Byte) :=
  if isPresent then if b = 0 then none else some (some b) else some none

/-- The day set of bytes 3 and 4; its unused bits name no known class and are BADARG, and so is an empty set (R12, R205). -/
def readDaySet (low high : Byte) : Option (BitVec 10) :=
  if low.toNat ≤ 127 ∧ high.toNat ≤ 7 ∧ ¬(low = 0 ∧ high = 0) then some (BitVec.ofNat 10 (low.toNat + high.toNat * 128))
  else none

/-- The notify set; an unused bit names no known cause and is BADARG (R12, R205). -/
def readNotify (b : Byte) : Option (BitVec 5) :=
  if b.toNat ≤ 31 then some (BitVec.ofNat 5 b.toNat) else none

/-- The length byte, the character bytes and the payload's own length agree, and the label is a good one (R11, R12). -/
def labelFits (bytes : List Byte) : Bool :=
  decide (23 ≤ bytes.length ∧ natAt bytes 22 ≤ Config.maxLabel ∧ bytes.length = 23 + natAt bytes 22) &&
    (bytes.drop 23).all labelChar

/-- Reads an entry descriptor, checked whole by R12. The unused bits of bytes 0 and 13 are ignored (R205). -/
def readDescriptor (bytes : List Byte) : Option Definition :=
  if !labelFits bytes then none
  else if hc : natAt bytes 1 < 24 then
    if 7 < natAt bytes 2 ∨ !(dayMinuteAt bytes 5).possible then none
    else
      match readDaySet (byteAt bytes 3) (byteAt bytes 4),
        readKind ((byteAt bytes 0).getLsbD 0) (dayMinuteAt bytes 5) bytes,
        readAction (byteAt bytes 9) (byteAt bytes 10) (byteAt bytes 11) (byteAt bytes 12),
        readOptionalDate ((byteAt bytes 13).getLsbD 0) (dateAt bytes 14),
        readOptionalDate ((byteAt bytes 13).getLsbD 1) (dateAt bytes 17),
        readBudget ((byteAt bytes 13).getLsbD 2) (byteAt bytes 20),
        readNotify (byteAt bytes 21) with
      | some daySet, some kind, some action, some fromDate, some untilDate, some budget, some notify =>
        if datesInOrder fromDate untilDate then
          some
            { kind := kind, channel := ⟨natAt bytes 1, hc⟩, priority := natAt bytes 2, daySet := daySet,
              start := dayMinuteAt bytes 5, action := action, fromDate := fromDate, untilDate := untilDate,
              budget := budget, catchUp := (byteAt bytes 0).getLsbD 1, notify := notify,
              autofree := (byteAt bytes 0).getLsbD 2, guarded := (byteAt bytes 0).getLsbD 3, label := bytes.drop 23 }
        else none
      | _, _, _, _, _, _, _ => none
  else none

/-- Bytes 7 and 8 of a descriptor. -/
def Kind.bytes : Kind → List Byte
  | .span stop => stop.bytes
  | .event duration => bytes2 duration

def Kind.isEvent : Kind → Bool
  | .span _ => false
  | .event _ => true

/-- A date that may be absent: zeros then (R205). -/
def optionalDateBytes : Option Date → List Byte
  | none => [0, 0, 0]
  | some d => d.bytes

/-- The descriptor of a definition, as READ_ENTRY returns it (R207). -/
def Definition.bytes (d : Definition) : List Byte :=
  [flagBit d.kind.isEvent 0 ||| flagBit d.catchUp 1 ||| flagBit d.autofree 2 ||| flagBit d.guarded 3,
    byteOf d.channel.val, byteOf d.priority, byteOf (d.daySet.toNat % 128), byteOf (d.daySet.toNat / 128)] ++
  d.start.bytes ++ d.kind.bytes ++ d.action.bytes ++
  [flagBit d.fromDate.isSome 0 ||| flagBit d.untilDate.isSome 1 ||| flagBit d.budget.isSome 2] ++
  optionalDateBytes d.fromDate ++ optionalDateBytes d.untilDate ++
  [d.budget.getD 0, byteOf d.notify.toNat, byteOf d.label.length] ++ d.label

/-! ### The entry status block (R76, R207) -/

/-- Held is meaningful in ACTIVE alone (section 1.3). -/
def Entry.reportedHeld (e : Entry) : Bool :=
  decide (e.state = .active) && e.held

/-- Interrupted is meaningful in ACTIVE and SUSPENDED, and in ARMED with admission due (section 1.3). -/
def Entry.reportedInterrupted (e : Entry) : Bool :=
  match e.state with
  | .active => e.interrupted
  | .suspended => e.interrupted
  | .armed => e.admissionDue && e.interrupted
  | .spent => false

/-- Remaining seconds are meaningful in an ACTIVE EVENT (section 1.3). -/
def Entry.reportedSeconds (e : Entry) : Nat :=
  if e.state = .active ∧ e.defn.kind.isEvent then e.remSeconds else 0

/-- The stamp's bytes, zeros when it is absent. -/
def stampBytes : Option Minute → List Byte
  | none => [0, 0, 0, 0, 0]
  | some m => m.date.bytes ++ m.time.bytes

/-- The entry status block of 13 bytes (R207). -/
def statusBlock (i : SlotNo) (gen : Byte) (e : Entry) : List Byte :=
  [byteOf i.val, gen, e.state.code, Port.code e.owner,
    flagBit e.reportedHeld 0 ||| flagBit e.reportedInterrupted 1 ||| flagBit e.stamp.isSome 2 |||
      flagBit e.remBudget.isSome 3] ++
  stampBytes e.stamp ++ [e.remBudget.getD 0] ++ bytes2 e.reportedSeconds

/-! ### Claim and channel reports (R93, R131, R207) -/

/-- The TIMED minutes and remaining seconds of a claim, zeros for another lifetime. -/
def Lifetime.timedBytes : Lifetime → List Byte
  | .timed minutes remaining => bytes2 minutes ++ bytes3 remaining
  | .entry => [0, 0, 0, 0, 0]
  | .momentary => [0, 0, 0, 0, 0]
  | .untilEdge => [0, 0, 0, 0, 0]
  | .latch => [0, 0, 0, 0, 0]

/-- A claim report of 13 bytes. -/
def Claim.bytes (c : Claim) : List Byte :=
  [Source.kindCode c.source, Source.index c.source, byteOf c.priority] ++ c.action.bytes ++ [c.lifetime.code] ++
    c.lifetime.timedBytes

/-- The sense input shows the load on (R125). -/
def loadShown (cfg : ChannelConfig) (senseHigh : Bool) : Bool :=
  if cfg.invertedSense then !senseHigh else senseHigh

/-- The guard remaining that a report shows: 0 only when the timer is idle, so that a guard in GUARDING whose last tick is counted
and whose expiry is still to be taken shows that tick as left (R131; notes/assumptions/5.md). -/
def ChannelRun.guardShown (run : ChannelRun) : Nat :=
  if run.state = .guarding ∧ run.guard = 0 then 1 else run.guard

/-- A channel report of 19 bytes. -/
def channelReport (cfg : ChannelConfig) (run : ChannelRun) (senseHigh : Bool) (claims : Nat) : List Byte :=
  [flagBit cfg.enabled 0 ||| flagBit cfg.activeLow 1 ||| flagBit cfg.fallbackOn 2 ||| flagBit cfg.proofEnable 3 |||
      flagBit cfg.invertedSense 4,
    cfg.guardTime, cfg.proofTime, run.state.code] ++
  run.commanded.bytes ++ optionalActionBytes run.pending ++ bytes2 run.guardShown ++
  [run.wave.code, run.cycles, run.proof.code, flagBit senseHigh 0 ||| flagBit (loadShown cfg senseHigh) 1, byteOf claims]

/-! ### Channel command payloads (R105, R113, R208) -/

/-- Reads CONFIGURE_CHANNEL's payload: a channel and the seven settings. -/
def readChannelConfig (bytes : List Byte) : Option (Chan × ChannelConfig) :=
  if bytes.length ≠ 8 then none
  else if hc : natAt bytes 0 < 24 then
    match readFlag (byteAt bytes 1), readFlag (byteAt bytes 2), readFlag (byteAt bytes 3), readFlag (byteAt bytes 5),
      readFlag (byteAt bytes 7) with
    | some enabled, some activeLow, some fallbackOn, some proofEnable, some invertedSense =>
      if byteAt bytes 6 = 0 then none
      else
        some (⟨natAt bytes 0, hc⟩,
          { enabled := enabled, activeLow := activeLow, fallbackOn := fallbackOn, guardTime := byteAt bytes 4,
            proofEnable := proofEnable, proofTime := byteAt bytes 6, invertedSense := invertedSense })
    | _, _, _, _, _ => none
  else none

/-- Reads a payload that is one channel (RELEASE_CHANNEL, CLEAR_FAULT). -/
def readChannelNo (bytes : List Byte) : Option Chan :=
  if bytes.length ≠ 1 then none else if hc : natAt bytes 0 < 24 then some ⟨natAt bytes 0, hc⟩ else none

/-- Reads READ_CHANNEL's payload: a channel and a claim index 0 to 8. -/
def readChannelIndex (bytes : List Byte) : Option (Chan × Nat) :=
  if bytes.length ≠ 2 ∨ 8 < natAt bytes 1 then none
  else if hc : natAt bytes 0 < 24 then some (⟨natAt bytes 0, hc⟩, natAt bytes 1) else none

/-- A FORCE_CHANNEL request; the priority is 9 when it was absent (R105). -/
structure Force where
  channel : Chan
  action : Action
  priority : Nat
  lifetime : Lifetime
  deriving DecidableEq, Repr

/-- The lifetime of a force: LATCH, TIMED with minutes 1 to 1440, or UNTIL_EDGE (R105, R106). -/
def readForceLifetime (code : Byte) (minutes : Nat) : Option Lifetime :=
  if code = 2 then if minutes = 0 ∨ 1440 < minutes then none else some (.timed minutes (minutes * 60))
  else if code = 3 then some .untilEdge
  else if code = 4 then some .latch
  else none

/-- The priority of a force: 0xFF is absent and means 9; above 9 is BADARG (R105). -/
def readForcePriority (b : Byte) : Option Nat :=
  if b = 0xFF then some 9 else if b.toNat ≤ 9 then some b.toNat else none

/-- Reads FORCE_CHANNEL's payload. -/
def readForce (bytes : List Byte) : Option Force :=
  if bytes.length ≠ 9 then none
  else if hc : natAt bytes 0 < 24 then
    match readAction (byteAt bytes 1) (byteAt bytes 2) (byteAt bytes 3) (byteAt bytes 4), readForcePriority (byteAt bytes 5),
      readForceLifetime (byteAt bytes 6) (natAt2 bytes 7) with
    | some action, some priority, some lifetime =>
      some { channel := ⟨natAt bytes 0, hc⟩, action := action, priority := priority, lifetime := lifetime }
    | _, _, _ => none
  else none

/-! ### Input command payloads (R135, R146, R208) -/

/-- The mode of a binding; TIMED carries its minutes, which are not stored for another mode (R135). -/
def readMode (code : Byte) (minutes : Nat) : Option Mode :=
  if code = 0 then some .momentary
  else if code = 1 then if minutes = 0 ∨ 1440 < minutes then none else some (.timed minutes)
  else if code = 2 then some .toggle
  else if code = 3 then some .untilEdge
  else none

/-- The channel mask of four bytes at `i`; the first names channels 24 to 31 and must be 0 (R205, R208). -/
def readMask (bytes : List Byte) (i : Nat) : Option (BitVec 24) :=
  if byteAt bytes i ≠ 0 then none
  else some (byteAt bytes (i + 1) ++ byteAt bytes (i + 2) ++ byteAt bytes (i + 3))

/-- The four bytes of a channel mask. -/
def maskBytes (mask : BitVec 24) : List Byte :=
  0 :: bytes3 mask.toNat

/-- Reads a binding of 15 bytes that starts at byte 1 of BIND_INPUT's payload. -/
def readBinding (bytes : List Byte) : Option Binding :=
  match readFlag (byteAt bytes 1), readFlag (byteAt bytes 2), readMask bytes 4,
    readAction (byteAt bytes 8) (byteAt bytes 9) (byteAt bytes 10) (byteAt bytes 11),
    readMode (byteAt bytes 13) (natAt2 bytes 14) with
  | some enabled, some lowActive, some mask, some action, some mode =>
    if byteAt bytes 3 = 0 ∨ 9 < natAt bytes 12 then none
    else
      some
        { enabled := enabled, lowActive := lowActive, debounce := byteAt bytes 3, mask := mask, action := action,
          priority := natAt bytes 12, mode := mode }
  | _, _, _, _, _ => none

/-- Reads BIND_INPUT's payload: an input and a binding. -/
def readBindInput (bytes : List Byte) : Option (InputNo × Binding) :=
  if bytes.length ≠ 16 then none
  else if hk : natAt bytes 0 < 8 then (readBinding bytes).map fun b => (⟨natAt bytes 0, hk⟩, b)
  else none

/-- Reads READ_INPUT's payload: an input. -/
def readInputNo (bytes : List Byte) : Option InputNo :=
  if bytes.length ≠ 1 then none else if hk : natAt bytes 0 < 8 then some ⟨natAt bytes 0, hk⟩ else none

def Mode.minutes : Mode → Nat
  | .timed m => m
  | .momentary => 0
  | .toggle => 0
  | .untilEdge => 0

/-- A binding of 15 bytes (R208). -/
def Binding.bytes (b : Binding) : List Byte :=
  [flagByte b.enabled, flagByte b.lowActive, b.debounce] ++ maskBytes b.mask ++ b.action.bytes ++
    [byteOf b.priority, b.mode.code] ++ bytes2 b.mode.minutes

/-! ### Clock and date payloads (R34, R35, R36, R158, R208) -/

/-- Reads SET_CLOCK's payload: a date and a time. -/
def readDateTime (bytes : List Byte) : Option Moment :=
  if bytes.length = 6 ∧ (dateAt bytes 0).possible ∧ (dayMinuteAt bytes 3).possible ∧ natAt bytes 5 ≤ 59 then
    some { date := dateAt bytes 0, time := dayMinuteAt bytes 3, second := natAt bytes 5 }
  else none

/-- Reads ADD_DATE's payload: a possible date and a day type. -/
def readDateRecord (bytes : List Byte) : Option DateRecord :=
  if bytes.length = 4 ∧ (dateAt bytes 0).possible then
    (readDayType (byteAt bytes 3)).map fun t => { date := dateAt bytes 0, dayType := t }
  else none

/-- Reads REMOVE_DATE's payload: a possible date. -/
def readDate (bytes : List Byte) : Option Date :=
  if bytes.length = 3 ∧ (dateAt bytes 0).possible then some (dateAt bytes 0) else none

/-- Reads LIST_DATES's payload: a start index 0 to 31. -/
def readDateIndex (bytes : List Byte) : Option Nat :=
  if bytes.length = 1 ∧ natAt bytes 0 ≤ 31 then some (natAt bytes 0) else none

/-! ### Table command payloads (R73, R86, R208) -/

/-- The slot at byte 0: every value 0 to 255 names a slot (R73). -/
def slotAt (bytes : List Byte) : SlotNo :=
  (byteAt bytes 0).toFin

/-- Reads READ_ENTRY's payload: a slot. -/
def readSlotNo (bytes : List Byte) : Option SlotNo :=
  if bytes.length = 1 then some (slotAt bytes) else none

/-- Reads a handle: a slot and an expected generation (SUSPEND_ENTRY, DELETE_ENTRY). -/
def readHandle (bytes : List Byte) : Option (SlotNo × Byte) :=
  if bytes.length = 2 then some (slotAt bytes, byteAt bytes 1) else none

/-- Reads RESUME_ENTRY's payload: a handle and a rejoin flag. -/
def readResume (bytes : List Byte) : Option (SlotNo × Byte × Bool) :=
  if bytes.length = 3 then (readFlag (byteAt bytes 2)).map fun f => (slotAt bytes, byteAt bytes 1, f) else none

/-- Reads MODIFY_ENTRY's payload: a handle and a descriptor. -/
def readModify (bytes : List Byte) : Option (SlotNo × Byte × Definition) :=
  if 2 ≤ bytes.length then (readDescriptor (bytes.drop 2)).map fun d => (slotAt bytes, byteAt bytes 1, d) else none

/-- A FIND_ENTRIES request: a state subset, whose bit c stands for the state of code c, an optional channel, an optional
owner, and a start cursor (R86). -/
structure Filter where
  states : Byte
  channel : Option Nat
  owner : Option Port
  cursor : Nat
  deriving DecidableEq, Repr

/-- An optional channel of the filter: above 23 is BADARG when it is present. -/
def readFilterChannel (isPresent : Bool) (n : Nat) : Option (Option Nat) :=
  if isPresent then if n < 24 then some (some n) else none else some none

/-- An optional owner of the filter: a value that is no port is BADARG when it is present. -/
def readFilterOwner (isPresent : Bool) (b : Byte) : Option (Option Port) :=
  if isPresent then if b = 0 then some (some .main) else if b = 1 then some (some .panel) else none else some none

/-- Reads FIND_ENTRIES's payload. The unused bits of the state subset and of the filter presence are ignored (R205). -/
def readFilter (bytes : List Byte) : Option Filter :=
  if bytes.length ≠ 6 then none
  else
    match readFilterChannel ((byteAt bytes 1).getLsbD 0) (natAt bytes 2),
      readFilterOwner ((byteAt bytes 1).getLsbD 1) (byteAt bytes 3) with
    | some channel, some owner =>
      if byteAt bytes 0 &&& 0x1F = 0 ∨ 256 < natAt2 bytes 4 then none
      else some { states := byteAt bytes 0 &&& 0x1F, channel := channel, owner := owner, cursor := natAt2 bytes 4 }
    | _, _ => none

/-! ### Attention and policy payloads (R170, R172, R200, R208) -/

/-- An enabled flag and a level 0 to 3 at byte `i`. -/
def readGroupConfig (bytes : List Byte) (i : Nat) : Option GroupConfig :=
  if 3 < natAt bytes (i + 1) then none
  else (readFlag (byteAt bytes i)).map fun f => { enabled := f, level := natAt bytes (i + 1) }

def readIrqMode (b : Byte) : Option IrqMode :=
  if b = 0 then some .level else if b = 1 then some .pulse else none

def readTickPeriod (b : Byte) : Option TickPeriod :=
  if b = 0 then some .off else if b = 1 then some .second else if b = 2 then some .minute
  else if b = 3 then some .hour else if b = 4 then some .day else none

/-- The configurable part of the attention unit. -/
structure AttentionConfig where
  groups : Vector GroupConfig 5
  irqMode : IrqMode
  tickPeriod : TickPeriod
  deriving DecidableEq, Repr

/-- Reads CONFIGURE_ATTENTION's payload of 12 bytes. -/
def readAttentionConfig (bytes : List Byte) : Option AttentionConfig :=
  if bytes.length ≠ 12 then none
  else
    match readGroupConfig bytes 0, readGroupConfig bytes 2, readGroupConfig bytes 4, readGroupConfig bytes 6,
      readGroupConfig bytes 8, readIrqMode (byteAt bytes 10), readTickPeriod (byteAt bytes 11) with
    | some entry, some channel, some input, some clock, some port, some irqMode, some tickPeriod =>
      some { groups := #v[entry, channel, input, clock, port], irqMode := irqMode, tickPeriod := tickPeriod }
    | _, _, _, _, _, _, _ => none

/-- Reads ACK_CLOCK's subset of TICK (bit 0) and INVALID (bit 1); any other bit is BADARG (R170, R205). -/
def readClockCauses (bytes : List Byte) : Option (Bool × Bool) :=
  if bytes.length = 1 ∧ natAt bytes 0 ≤ 3 then some ((byteAt bytes 0).getLsbD 0, (byteAt bytes 0).getLsbD 1) else none

/-- Reads SET_PANEL_POLICY's subset of the four permissions; any other bit is BADARG (R200, R205). -/
def readPolicy (bytes : List Byte) : Option (BitVec 4) :=
  if bytes.length = 1 ∧ natAt bytes 0 ≤ 15 then some (BitVec.ofNat 4 (natAt bytes 0)) else none

end Sys2Proof.Machine
end

