-- ==== Sys2Proof/Machine/Flags.lean ====
section
/-! DEFINITION. The named places of the state (accessors and updates), and every flag the part computes from it: the causes and
notice sets, the pending groups, the IRQN line and its pulse, the POLL bytes and the panel's permissions (chapters 9 and
11). -/

namespace Sys2Proof.Machine

/-! ### Places of the state -/

def State.slot (s : State) (i : SlotNo) : Slot :=
  s.table[i]

def State.list (s : State) (c : Chan) : List Claim :=
  s.arbiter.lists[c]

def State.lastTop (s : State) (c : Chan) : Option Top :=
  s.arbiter.lastTop[c]

def State.config (s : State) (c : Chan) : ChannelConfig :=
  s.configs[c]

def State.channel (s : State) (c : Chan) : ChannelRun :=
  s.channels[c]

def State.binding (s : State) (k : InputNo) : Binding :=
  s.bindings[k]

def State.input (s : State) (k : InputNo) : InputRun :=
  s.inputs[k]

def State.port (s : State) : Port → PortState
  | .main => s.mainPort
  | .panel => s.panelPort

def State.withSlot (s : State) (i : SlotNo) (x : Slot) : State :=
  { s with table := s.table.set i x }

def State.withTable (s : State) (t : Vector Slot 256) : State :=
  { s with table := t }

def State.withEngine (s : State) (e : Engine) : State :=
  { s with engine := e }

def State.withArbiter (s : State) (a : Arbiter) : State :=
  { s with arbiter := a }

def State.withConfig (s : State) (c : Chan) (cfg : ChannelConfig) : State :=
  { s with configs := s.configs.set c cfg }

def State.withChannel (s : State) (c : Chan) (run : ChannelRun) : State :=
  { s with channels := s.channels.set c run }

def State.withBinding (s : State) (k : InputNo) (b : Binding) : State :=
  { s with bindings := s.bindings.set k b }

def State.withInput (s : State) (k : InputNo) (r : InputRun) : State :=
  { s with inputs := s.inputs.set k r }

def State.withAttention (s : State) (a : Attention) : State :=
  { s with attention := a }

def State.withPort (s : State) (p : Port) (x : PortState) : State :=
  match p with
  | .main => { s with mainPort := x }
  | .panel => { s with panelPort := x }

def State.withPanelBus (s : State) (b : PanelBus) : State :=
  { s with panelBus := b }

def State.withDates (s : State) (d : DateSet) : State :=
  { s with dates := d }

def State.withClock (s : State) (c : Clock) : State :=
  { s with clock := c }

def State.withTimebase (s : State) (t : Timebase) : State :=
  { s with timebase := t }

def State.withPins (s : State) (p : Pins) : State :=
  { s with pins := p }

def State.withPolicy (s : State) (p : BitVec 4) : State :=
  { s with policy := p }

/-- Every block runs: the supply is NORMAL and no main reset is in progress (R181). -/
def State.running (s : State) : Bool :=
  decide (s.supply = .normal) && !s.inReset

/-! ### Causes and groups (R164, R165, R168, R170, R206) -/

inductive EntryCause where
  | started
  | ended
  | spent
  | missed
  | displaced
  deriving DecidableEq, Repr

/-- The bit of an entry cause, in notify and in the entry notice set. -/
def EntryCause.bit : EntryCause → BitVec 5
  | .started => 1
  | .ended => 2
  | .spent => 4
  | .missed => 8
  | .displaced => 16

inductive ChannelCause where
  | fault
  | displaced
  deriving DecidableEq, Repr

def ChannelCause.bit : ChannelCause → BitVec 2
  | .fault => 1
  | .displaced => 2

inductive Group where
  | entry
  | channel
  | input
  | clock
  | port
  deriving DecidableEq, Repr

/-- The groups in the order in which NEXT_CAUSE prefers them at equal level (R173). -/
def Group.all : List Group :=
  [.entry, .channel, .input, .clock, .port]

/-- A group's place in the attention configuration, and its bit in a set of groups. -/
def Group.index : Group → Fin 5
  | .entry => 0
  | .channel => 1
  | .input => 2
  | .clock => 3
  | .port => 4

/-- A group's code in NEXT_CAUSE; NONE is 0 (R206). -/
def Group.code : Group → Byte
  | .entry => 1
  | .channel => 2
  | .input => 3
  | .clock => 4
  | .port => 5

/-- A slot holds a response. -/
def PortSlot.isReady : PortSlot → Bool
  | .ready _ => true
  | .idle => false
  | .receiving _ => false
  | .pending _ => false

/-- A group is pending while its condition holds (R164). -/
def State.groupPending (s : State) : Group → Bool
  | .entry => s.attention.entryNotices.toList.any fun causes => causes != 0
  | .channel => s.attention.channelNotices.toList.any fun causes => causes != 0
  | .input => s.inputs.toList.any fun r => r.pressSeen || r.releaseSeen
  | .clock => s.attention.tickCause || s.attention.invalidCause
  | .port => s.mainPort.slot.isReady

/-- A group is both enabled and pending. -/
def State.groupAsserts (s : State) (g : Group) : Bool :=
  s.attention.groups[g.index].enabled && s.groupPending g

/-- The set of pending groups, enabled or not (R173, R206). -/
def State.pendingGroups (s : State) : Byte :=
  flagBit (s.groupPending .entry) 0 ||| flagBit (s.groupPending .channel) 1 ||| flagBit (s.groupPending .input) 2 |||
    flagBit (s.groupPending .clock) 3 ||| flagBit (s.groupPending .port) 4

/-! ### The interrupt line (R174, R175) -/

/-- IRQN follows one arrival that turned `before` into `s`: in PULSE mode a group that has become both enabled and pending
gives a pulse, or starts the 50 µs of the one being driven again; in LEVEL mode there is no pulse. -/
def State.irqFollow (before s : State) : State :=
  s.withAttention
    { s.attention with
      pulse :=
        match s.attention.irqMode with
        | .level => false
        | .pulse => s.attention.pulse || Group.all.any fun g => s.groupAsserts g && !before.groupAsserts g }

/-- IRQN is asserted (R174, R175). -/
def State.irqAsserted (s : State) : Bool :=
  s.running &&
    match s.attention.irqMode with
    | .level => Group.all.any s.groupAsserts
    | .pulse => s.attention.pulse

/-- The group NEXT_CAUSE selects: the highest level among those enabled and pending, the first in order at equal level
(R173). -/
def State.selectGroup (s : State) : Option Group :=
  Group.all.foldl
    (fun best g =>
      if s.groupAsserts g then
        match best with
        | none => some g
        | some b => if s.attention.groups[b.index].level < s.attention.groups[g.index].level then some g else some b
      else best)
    none

/-! ### Raising and taking causes -/

/-- A block raises a cause for the entry in slot `i`: it joins the slot's member if the entry's notify names it; an EMPTY slot
has no notify (R165, R166). -/
def State.raiseEntry (s : State) (i : SlotNo) (cause : EntryCause) : State :=
  match (s.slot i).entry with
  | none => s
  | some e =>
    if e.defn.notify &&& cause.bit = 0 then s
    else
      s.irqFollow
        (s.withAttention
          { s.attention with
            entryNotices := s.attention.entryNotices.set i (s.attention.entryNotices[i] ||| cause.bit) })

/-- The slot leaves the entry notice set with every cause it holds (R166). -/
def State.dropEntryNotice (s : State) (i : SlotNo) : State :=
  s.irqFollow (s.withAttention { s.attention with entryNotices := s.attention.entryNotices.set i 0 })

/-- A cause is added to the channel notice set, with no filter (R168). -/
def State.raiseChannel (s : State) (c : Chan) (cause : ChannelCause) : State :=
  s.irqFollow
    (s.withAttention
      { s.attention with channelNotices := s.attention.channelNotices.set c (s.attention.channelNotices[c] ||| cause.bit) })

/-- The TICK cause is raised (R162, R170). -/
def State.raiseTick (s : State) : State :=
  s.irqFollow (s.withAttention { s.attention with tickCause := true })

/-- The INVALID cause is raised (R170). -/
def State.raiseInvalid (s : State) : State :=
  s.irqFollow (s.withAttention { s.attention with invalidCause := true })

/-! ### The POLL bytes (R193, R207) -/

/-- The code of a slot state in the port status byte. -/
def PortSlot.code : PortSlot → Byte
  | .idle => 0
  | .receiving _ => 1
  | .pending _ => 2
  | .ready _ => 3

/-- A resync is in flight. -/
def Work.isResync : Work → Bool
  | .resync _ _ _ => true
  | .idle => false
  | .sweep _ _ => false

/-- A minute sweep or a resync is in flight: top reports are batched (R68). -/
def Work.inFlight : Work → Bool
  | .idle => false
  | .sweep _ _ => true
  | .resync _ _ _ => true

/-- The port status byte. -/
def State.statusByte (s : State) (p : Port) : Byte :=
  (s.port p).slot.code ||| flagBit (s.port p).refused 2 ||| flagBit (s.port p).truncated 3 |||
    flagBit (s.port p).badKind 4 ||| flagBit s.clock.valid 5 ||| flagBit s.engine.work.isResync 6

/-! ### The panel policy (R199) -/

inductive Permission where
  | calendar
  | others
  | force
  | config
  deriving DecidableEq, Repr

/-- A permission's bit in the panel policy (R206). -/
def Permission.bit : Permission → Nat
  | .calendar => 0
  | .others => 1
  | .force => 2
  | .config => 3

/-- The sending port is allowed a command that needs `perm`: the main port always, the panel port when the policy has it
(R199). -/
def State.allows (s : State) (p : Port) (perm : Permission) : Bool :=
  match p with
  | .main => true
  | .panel => s.policy.getLsbD perm.bit

/-- The ownership tests of R72 on the entry in slot `i`: a guarded entry is changed by its owner alone, and a MAIN-owned entry
by the panel only with OTHERS. An EMPTY slot has no owner. -/
def State.mayChange (s : State) (p : Port) (i : SlotNo) : Bool :=
  match (s.slot i).entry with
  | none => true
  | some e => !(e.defn.guarded && decide (e.owner ≠ p)) && (decide (e.owner = p) || s.allows p .others)

end Sys2Proof.Machine
end

