-- ==== Sys2Proof/Machine/Ops.lean ====
section
/-! DEFINITION. The shared steps of the blocks, each written once: the output stage's transitions, the arbiter's placements and
removals, the table's steps on one entry, the engine's evaluations of one entry, and the starts and completions of its work
(chapters 1, 3, 5 and 6). -/

namespace Sys2Proof.Machine

/-- Every channel, 0 to 23. -/
def allChannels : List Chan :=
  List.finRange 24

/-! ### Output stage: one channel (sections 6.2 to 6.5) -/

/-- The fallback action (R113, R115). -/
def ChannelConfig.fallback (cfg : ChannelConfig) : Action :=
  if cfg.fallbackOn then .on else .off

/-- Proof applies: enabled and not FAULTED, proof enable set, and the commanded action a steady level (R125). -/
def proofApplies (cfg : ChannelConfig) (state : ChannelState) (commanded : Action) : Bool :=
  cfg.enabled && cfg.proofEnable && decide (state ≠ .faulted) &&
    match commanded with
    | .off => true
    | .on => true
    | .pulse _ => false

/-- The proof monitor restarts: SETTLING with the full proof time where proof applies, otherwise IDLE (R125). -/
def ChannelRun.restartProof (run : ChannelRun) (cfg : ChannelConfig) : ChannelRun :=
  if proofApplies cfg run.state run.commanded then { run with proof := .settling, proofTicks := cfg.proofTime.toNat }
  else { run with proof := .idle, proofTicks := 0 }

/-- The commanded action becomes `a` and the waveform starts from its beginning: a PULSE with its on phase and a count of 0,
OFF and ON steady (R123). -/
def ChannelRun.command (run : ChannelRun) (a : Action) : ChannelRun :=
  match a with
  | .off => { run with commanded := a, wave := .steady, phaseTicks := 0, cycles := 0 }
  | .on => { run with commanded := a, wave := .steady, phaseTicks := 0, cycles := 0 }
  | .pulse shape => { run with commanded := a, wave := .onPhase, phaseTicks := shape.onWidth.toNat, cycles := 0 }

/-- The guard timer starts with the guard time, ten 100 ms ticks a second, and the channel is GUARDING; with a guard time of 0
it does not start and the channel is NORMAL (R117, R118, R121). -/
def ChannelRun.startGuard (run : ChannelRun) (cfg : ChannelConfig) : ChannelRun :=
  if cfg.guardTime = 0 then { run with state := .normal, guard := 0 }
  else { run with state := .guarding, guard := cfg.guardTime.toNat * 10 }

/-- A change of the commanded action with its three consequences (R117). -/
def ChannelRun.change (run : ChannelRun) (cfg : ChannelConfig) (a : Action) : ChannelRun :=
  ((run.command a).restartProof cfg).startGuard cfg

/-- The output stage takes a reported top whose action is `target` (R116). -/
def ChannelRun.takeTarget (run : ChannelRun) (cfg : ChannelConfig) (target : Action) : ChannelRun :=
  match run.state with
  | .normal => if target = run.commanded then run else run.change cfg target
  | .guarding => { run with pending := some target }
  | .disabled => run
  | .faulted => run

/-- The guard timer expires (R118). -/
def ChannelRun.guardExpires (run : ChannelRun) (cfg : ChannelConfig) : ChannelRun :=
  match run.pending with
  | none => { run with state := .normal, guard := 0 }
  | some a =>
    if a = run.commanded then { run with pending := none, state := .normal, guard := 0 }
    else { run with pending := none }.change cfg a

/-- The channel leaves service: the fallback action at once, the guard idle, no pending action, a steady level (R119,
R128). -/
def ChannelRun.outOfService (cfg : ChannelConfig) (state : ChannelState) (proof : Proof) : ChannelRun :=
  { state := state, commanded := cfg.fallback, pending := none, guard := 0, wave := .steady, phaseTicks := 0, cycles := 0,
    proof := proof, proofTicks := 0 }

/-- The channel enters service, by enabling or by CLEAR_FAULT: the target at once, the proof monitor restarted, the guard
started (R119, R130). -/
def ChannelRun.intoService (run : ChannelRun) (cfg : ChannelConfig) (target : Action) : ChannelRun :=
  { run with state := .normal, pending := none }.change cfg target

/-- A channel's runtime rebuilt by a main reset (R133). -/
def ChannelRun.afterReset (cfg : ChannelConfig) : ChannelRun :=
  if cfg.enabled then (ChannelRun.outOfService cfg .normal .idle).restartProof cfg
  else ChannelRun.outOfService cfg .disabled .idle

/-- The action a top asks for, or the fallback action when there is none (R115). -/
def targetOf (cfg : ChannelConfig) (top : Option Top) : Action :=
  match top with
  | none => cfg.fallback
  | some t => t.action

/-- The target of a channel: the action of the top last reported (R115). -/
def State.target (s : State) (c : Chan) : Action :=
  targetOf (s.config c) (s.lastTop c)

/-- A new fallback action is a new target when no top claim stands (R114). -/
def ChannelRun.newFallback (run : ChannelRun) (old cfg : ChannelConfig) (top : Option Top) : ChannelRun :=
  if top = none ∧ cfg.fallback ≠ old.fallback then run.takeTarget cfg cfg.fallback else run

/-- An accepted CONFIGURE_CHANNEL on a channel whose last reported top is `top`, with its former settings `old` (R114). -/
def ChannelRun.configure (run : ChannelRun) (old cfg : ChannelConfig) (top : Option Top) : ChannelRun :=
  if !cfg.enabled then ChannelRun.outOfService cfg .disabled .idle
  else
    match run.state with
    | .disabled => run.intoService cfg (targetOf cfg top)
    | .faulted => ChannelRun.outOfService cfg .faulted .fault
    | .normal => (run.newFallback old cfg top).restartProof cfg
    | .guarding => (run.newFallback old cfg top).restartProof cfg

/-! ### Arbiter: one list (R94 to R98, R103) -/

/-- `a` stands before `b`: of higher priority, or of equal priority and placed later (R94). -/
def Claim.standsBefore (a b : Claim) : Bool :=
  decide (b.priority < a.priority ∨ (b.priority = a.priority ∧ b.order < a.order))

/-- Puts a claim at the place its priority and placement order give it (R94). -/
def insertClaim (c : Claim) : List Claim → List Claim
  | [] => [c]
  | d :: ds => if c.standsBefore d then c :: d :: ds else d :: insertClaim c ds

/-- A placement order later than that of every claim in the list. -/
def nextOrder (l : List Claim) : Nat :=
  l.foldl (fun n c => max n (c.order + 1)) 0

/-- The claim of such a source is an entry claim. -/
def isEntrySource : Source → Bool
  | .entry _ => true
  | .input _ => false
  | .port _ => false

def Lifetime.isUntilEdge : Lifetime → Bool
  | .untilEdge => true
  | .entry => false
  | .momentary => false
  | .timed _ _ => false
  | .latch => false

/-- The claim of a source in a list. -/
def claimOf (l : List Claim) (src : Source) : Option Claim :=
  l.find? fun c => decide (c.source = src)

/-- An edge of an entry claim removes every UNTIL_EDGE claim of the list (R103). -/
def dropUntilEdge (l : List Claim) : List Claim :=
  l.filter fun c => !c.lifetime.isUntilEdge

/-- The list without the claim of a source. -/
def dropSource (l : List Claim) (src : Source) : List Claim :=
  l.filter fun c => decide (c.source ≠ src)

/-- What a placement leaves: the list, whether the newcomer was kept, and the claim that was pushed out (R96). -/
structure Placement where
  list : List Claim
  kept : Bool
  displaced : Option Claim
  deriving DecidableEq, Repr

/-- A claim that is being placed takes a placement order later than every claim in the list (R94). -/
def Claim.newest (c : Claim) (l : List Claim) : Claim :=
  { c with order := nextOrder l }

/-- Phases 1 and 2: UNTIL_EDGE claims leave before an entry claim, and the source's old claim leaves (R95, R96, R103). -/
def clearedFor (l : List Claim) (src : Source) : List Claim :=
  dropSource (if isEntrySource src then dropUntilEdge l else l) src

/-- Phase 3: the newcomer stands at the place R94 gives it. -/
def insertNewest (l : List Claim) (c : Claim) : List Claim :=
  insertClaim (c.newest l) (clearedFor l c.source)

/-- Phases 4 and 5 on nine claims, the newcomer's source being `src`: the last of the nine is not kept, and an entry claim that
is pushed out is an edge for the UNTIL_EDGE claims that stood before. A placement that is not kept leaves the list `l` as it
was. -/
def overflowList (l nine : List Claim) (src : Source) : Placement :=
  match nine.getLast? with
  | none => { list := nine, kept := true, displaced := none }
  | some last =>
    if last.source = src then { list := l, kept := false, displaced := none }
    else if isEntrySource last.source then
      { list := nine.dropLast.filter fun d => decide (d.source = src) || !d.lifetime.isUntilEdge, kept := true,
        displaced := some last }
    else { list := nine.dropLast, kept := true, displaced := some last }

/-- A placement in the phases of R96. -/
def placeInList (l : List Claim) (c : Claim) : Placement :=
  if (insertNewest l c).length ≤ Config.claimCapacity then { list := insertNewest l c, kept := true, displaced := none }
  else overflowList l (insertNewest l c) c.source

/-- A removal by source; taking out an entry claim is an edge (R98). -/
def removeFromList (l : List Claim) (src : Source) : List Claim :=
  match claimOf l src with
  | none => l
  | some _ => if isEntrySource src then dropUntilEdge (dropSource l src) else dropSource l src

/-- An in-place update: the claim of the source takes a new priority and action, keeps its placement order and moves to the
place they give it (R94). -/
def updateInList (l : List Claim) (src : Source) (priority : Nat) (action : Action) : List Claim :=
  match claimOf l src with
  | none => l
  | some c => insertClaim { c with priority := priority, action := action } (dropSource l src)

/-- The top claim of a list as it is reported (R109). -/
def topOf (l : List Claim) : Option Top :=
  l.head?.map fun c => { source := c.source, priority := c.priority, action := c.action }

/-! ### Arbiter: reports and steps on the state (R68, R92, R109) -/

/-- The arbiter reports the channel's top as it stands, and the output stage takes it (R109, R116). -/
def State.reportTop (s : State) (c : Chan) : State :=
  let top := topOf (s.list c)
  (s.withArbiter { s.arbiter with lastTop := s.arbiter.lastTop.set c top }).withChannel c
    ((s.channel c).takeTarget (s.config c) (targetOf (s.config c) top))

/-- A step leaves the list of channel `c` as `l`. While work is in flight the channel is recorded when its list changed;
otherwise a top that differs from the one last reported is reported at once (R68, R109). -/
def State.setList (s : State) (c : Chan) (l : List Claim) : State :=
  if s.engine.work.inFlight then
    s.withArbiter
      { s.arbiter with
        lists := s.arbiter.lists.set c l
        changed := s.arbiter.changed.set c (s.arbiter.changed[c] || decide (l ≠ s.list c)) }
  else
    let s' := s.withArbiter { s.arbiter with lists := s.arbiter.lists.set c l }
    if topOf l = s.lastTop c then s' else s'.reportTop c

/-- The recorded channels' tops are reported as they then stand, and the record is cleared (R47, R62, R68). -/
def State.flushBatch (s : State) : State :=
  let s' := allChannels.foldl (fun t c => if t.arbiter.changed[c] then t.reportTop c else t) s
  s'.withArbiter { s'.arbiter with changed := Vector.replicate 24 false }

/-- Changes held on the entry in slot `i`; held does not advance the generation (R15, R23). -/
def State.setHeld (s : State) (i : SlotNo) (held : Bool) : State :=
  match (s.slot i).entry with
  | none => s
  | some e => s.withSlot i { gen := (s.slot i).gen, entry := some { e with held := held } }

/-- A claim that stood in the list of `c` has been pushed out: an entry loses held and raises DISPLACED, an input or port
raises DISPLACED for the channel (R97, R101). -/
def State.displace (s : State) (c : Chan) (claim : Claim) : State :=
  match claim.source with
  | .entry i => (s.setHeld i false).raiseEntry i .displaced
  | .input _ => s.raiseChannel c .displaced
  | .port _ => s.raiseChannel c .displaced

/-- One placement on one list, with its displacement and its report (R96, R97). The consequences for a newcomer that is not
kept are its source's (`placeEntryClaim`, `placeInputClaim`). -/
def State.place (s : State) (c : Chan) (claim : Claim) : State :=
  let p := placeInList (s.list c) claim
  let s' := s.setList c p.list
  match p.displaced with
  | none => s'
  | some d => s'.displace c d

/-- The list would keep the claim (R96). -/
def State.keeps (s : State) (c : Chan) (claim : Claim) : Bool :=
  (placeInList (s.list c) claim).kept

/-- One removal on one list (R98). -/
def State.remove (s : State) (c : Chan) (src : Source) : State :=
  s.setList c (removeFromList (s.list c) src)

/-! ### The claim of an entry (R100) -/

/-- The claim that the entry in slot `i` places. -/
def entryClaim (i : SlotNo) (defn : Definition) : Claim :=
  { source := .entry i, priority := defn.priority, action := defn.action, lifetime := .entry, order := 0 }

/-- The entry's claim is handed to the arbiter, whose answer sets held; a claim that is not kept raises DISPLACED (R44, R52,
R56, R97). -/
def State.placeEntryClaim (s : State) (i : SlotNo) : State :=
  match (s.slot i).entry with
  | none => s
  | some e =>
    if s.keeps e.defn.channel (entryClaim i e.defn) then
      (s.place e.defn.channel (entryClaim i e.defn)).setHeld i true
    else (s.setHeld i false).raiseEntry i .displaced

/-- A held claim of the entry leaves its channel's list; with held false nothing is removed (R45). -/
def State.withdrawEntryClaim (s : State) (i : SlotNo) : State :=
  match (s.slot i).entry with
  | none => s
  | some e => if e.held then s.remove e.defn.channel (.entry i) else s

/-! ### Steps of the table on one entry (R14, R23) -/

/-- One step of the table that leaves the entry as `e` and advances the generation once. -/
def State.stepEntry (s : State) (i : SlotNo) (e : Entry) : State :=
  s.withSlot i { gen := (s.slot i).gen + 1, entry := some e }

/-- A change to the runtime fields that do not advance the generation (R23). -/
def State.markEntry (s : State) (i : SlotNo) (e : Entry) : State :=
  s.withSlot i { gen := (s.slot i).gen, entry := some e }

/-- The slot becomes EMPTY in one step: every field is cleared, the generation advances once, and the slot leaves the entry
notice set (R14, R46, R85, R166). -/
def State.freeSlot (s : State) (i : SlotNo) : State :=
  (s.withSlot i { gen := (s.slot i).gen + 1, entry := none }).dropEntryNotice i

/-- What every way of leaving ACTIVE clears: held, interrupted, final, end due and remaining seconds (R45). -/
def Entry.leaveActive (e : Entry) (state : EntryState) : Entry :=
  { e with state := state, held := false, interrupted := false, final := false, endDue := none, remSeconds := 0 }

/-- Autofree at a SPENT entry: freed at once when its notify lacks SPENT (R46). -/
def State.autofreeSpent (s : State) (i : SlotNo) : State :=
  match (s.slot i).entry with
  | none => s
  | some e => if e.defn.autofree ∧ e.defn.notify &&& EntryCause.spent.bit = 0 then s.freeSlot i else s

/-- The entry has just entered SPENT: SPENT is raised, then autofree applies (R46). -/
def State.enteredSpent (s : State) (i : SlotNo) : State :=
  (s.raiseEntry i .spent).autofreeSpent i

/-- An ARMED entry becomes SPENT, one step, and R46 follows. -/
def State.spendArmed (s : State) (i : SlotNo) : State :=
  match (s.slot i).entry with
  | none => s
  | some e => (s.stepEntry i { e with state := .spent }).enteredSpent i

/-- The occurrence ends (R45): a held claim is removed, ENDED is raised, and the entry becomes SPENT with remaining budget 0
or final set, otherwise ARMED. -/
def State.endOccurrence (s : State) (i : SlotNo) : State :=
  match (s.slot i).entry with
  | none => s
  | some e =>
    let s' := (s.withdrawEntryClaim i).raiseEntry i .ended
    if e.remBudget = some 0 ∨ e.final then (s'.stepEntry i (e.leaveActive .spent)).enteredSpent i
    else s'.stepEntry i (e.leaveActive .armed)

/-- The runtime fields of an occurrence that starts on `d`: ACTIVE, one unit of budget spent, the stamp set, end due or
remaining seconds set (R19, R44). -/
def Entry.activated (e : Entry) (d : Date) : Entry :=
  { e with
    state := .active
    remBudget := e.remBudget.map fun b => b - 1
    stamp := some { date := d, time := e.defn.start }
    held := false
    interrupted := false
    final := false
    admissionDue := false
    rejoin := false
    endDue :=
      match e.defn.kind with
      | .span stop => some (windowClose d e.defn.start stop)
      | .event _ => none
    remSeconds :=
      match e.defn.kind with
      | .span _ => 0
      | .event duration => duration }

/-- The activation of the occurrence that starts on `d`: one step of the table, STARTED, and the claim (R44). -/
def State.activate (s : State) (i : SlotNo) (d : Date) : State :=
  match (s.slot i).entry with
  | none => s
  | some e => ((s.stepEntry i (e.activated d)).raiseEntry i .started).placeEntryClaim i

/-! ### Rejoin (R52, R58) -/

/-- The closing of the stamped window, when the entry may rejoin it at `m`: admission due carries the rejoin flag, interrupted
is set, the entry is a SPAN, and `m` lies in the window its stamp names, tested by its opening and closing alone. -/
def Entry.rejoinWindow (e : Entry) (m : Minute) : Option Minute :=
  match e.defn.kind, e.stamp with
  | .span stop, some stamp =>
    if e.admissionDue && e.rejoin && e.interrupted && inWindow stamp.date stamp.time stop m then
      some (windowClose stamp.date stamp.time stop)
    else none
  | .span _, none => none
  | .event _, _ => none

/-- The entry becomes ACTIVE again for its stamped occurrence, without an activation (R52). -/
def State.rejoinEntry (s : State) (i : SlotNo) (close : Minute) : State :=
  match (s.slot i).entry with
  | none => s
  | some e => (s.stepEntry i { e with state := .active, endDue := some close }).placeEntryClaim i

/-! ### Admission (R50, R51) -/

/-- An admission, or a resync's visit in its place, is over: admission due, its rejoin flag and interrupted are cleared (R50,
R52). -/
def State.closeAdmission (s : State) (i : SlotNo) : State :=
  match (s.slot i).entry with
  | none => s
  | some e => s.markEntry i { e with admissionDue := false, rejoin := false, interrupted := false }

/-- The start date of the occurrence that an admission at `m` activates, if there is one, the clock's date being `today` (R50,
steps 3 and 4). -/
def Entry.admissible (e : Entry) (dates : DateSet) (today : Date) (m : Minute) : Option Date :=
  match e.defn.kind with
  | .span stop => e.defn.openWindow stop e.stamp dates today m
  | .event _ =>
    if decide (m.time = e.defn.start) && e.defn.startsToday dates m.date && !stampNames e.stamp m.date e.defn.start then
      some m.date
    else none

/-- The steps of an admission of an ARMED entry at `m` before it is closed (R50). -/
def State.admitSteps (s : State) (i : SlotNo) (e : Entry) (m : Minute) : State :=
  match e.rejoinWindow m with
  | some close => s.rejoinEntry i close
  | none =>
    if e.remBudget = some 0 then s.spendArmed i
    else
      match e.admissible s.dates s.clock.date m with
      | some d => s.activate i d
      | none => s

/-- The admission of the ARMED entry in slot `i` against the evaluation minute `m` (R50). -/
def State.admitOne (s : State) (i : SlotNo) (m : Minute) : State :=
  match (s.slot i).entry with
  | none => s
  | some e => (s.admitSteps i e m).closeAdmission i

/-- The admission of a command: at once with no sweep in flight or with the cursor past the slot, left to the sweep's visit
otherwise, and left due while the clock is INVALID (R20, R51). -/
def State.admitAfterCommand (s : State) (i : SlotNo) : State :=
  if !s.clock.valid then s
  else
    match s.engine.work with
    | .idle => s.admitOne i s.clock.now
    | .sweep _ cursor => if i.val < cursor then s.admitOne i s.clock.now else s
    | .resync _ _ _ => s

/-! ### The minute sweep's visit (R41 to R44) -/

/-- The start check of an ARMED entry at the sweep minute (R44). -/
def State.startCheck (s : State) (i : SlotNo) (e : Entry) (m : Minute) : State :=
  if e.remBudget = some 0 then s.spendArmed i
  else if decide (e.defn.start = m.time) && e.defn.startsToday s.dates m.date && !stampNames e.stamp m.date e.defn.start then
    s.activate i m.date
  else s

/-- The end check of an ACTIVE entry at the sweep minute (R43). -/
def State.endCheck (s : State) (i : SlotNo) (e : Entry) (m : Minute) : State :=
  match e.defn.kind with
  | .span _ => if e.endDue = some m then s.endOccurrence i else s
  | .event _ => s

/-- Sets final on the entry in slot `i` (R18). -/
def State.setFinal (s : State) (i : SlotNo) : State :=
  match (s.slot i).entry with
  | none => s
  | some e => s.markEntry i { e with final := true }

/-- The visit of a sweep for minute `m` to slot `i` (R41, R42). -/
def State.sweepSlot (s : State) (i : SlotNo) (m : Minute) : State :=
  match (s.slot i).entry with
  | none => s
  | some e =>
    let past := decide (m.time = DayMinute.midnight) && e.defn.pastUntil m.date
    match e.state with
    | .suspended => s
    | .spent => s
    | .armed =>
      if past then s.spendArmed i
      else if e.admissionDue then s.admitOne i m
      else s.startCheck i e m
    | .active => (if past then s.setFinal i else s).endCheck i e m

/-! ### The resync's visit (R55 to R60) -/

/-- An ARMED SPAN that is not activated raises MISSED when its whole window on T's date lies in the skipped interval and its
stamp does not name it (R60). -/
def Entry.missedSpan (e : Entry) (stop : DayMinute) (dates : DateSet) (today : Date) (t : Moment) (skipped : Skipped) : Bool :=
  !crossesMidnight e.defn.start stop && e.defn.startsOn dates today t.date && skipped.covers e.defn.start &&
    skipped.covers stop && !stampNames e.stamp t.date e.defn.start

/-- What a resync does with an ARMED SPAN that does not rejoin and has budget left (R58, R60). -/
def State.resyncArmedSpan (s : State) (i : SlotNo) (e : Entry) (stop : DayMinute) (t : Moment) (skipped : Skipped) : State :=
  match e.defn.openWindow stop e.stamp s.dates s.clock.date t.minuteOf with
  | some d => s.activate i d
  | none => if e.missedSpan stop s.dates s.clock.date t skipped then s.raiseEntry i .missed else s

/-- What a resync does with an ARMED EVENT that has budget left (R59). -/
def State.resyncArmedEvent (s : State) (i : SlotNo) (e : Entry) (t : Moment) (skipped : Skipped) : State :=
  if e.defn.startsToday s.dates t.date && !stampNames e.stamp t.date e.defn.start then
    if e.defn.start = t.time then s.activate i t.date
    else if skipped.covers e.defn.start then
      if e.defn.catchUp then s.activate i t.date else s.raiseEntry i .missed
    else s
  else s

/-- The steps of a resync's visit to an ARMED entry before it is closed (R55, R58, R59). -/
def State.resyncArmedSteps (s : State) (i : SlotNo) (e : Entry) (t : Moment) (skipped : Skipped) : State :=
  if e.defn.pastUntil t.date then s.spendArmed i
  else
    match e.rejoinWindow t.minuteOf with
    | some close => s.rejoinEntry i close
    | none =>
      if e.remBudget = some 0 then s.spendArmed i
      else
        match e.defn.kind with
        | .span stop => s.resyncArmedSpan i e stop t skipped
        | .event _ => s.resyncArmedEvent i e t skipped

/-- A resync's visit to an ARMED entry; it clears admission due and, unless the entry rejoined, interrupted (R55, R58). -/
def State.resyncArmed (s : State) (i : SlotNo) (t : Moment) (skipped : Skipped) : State :=
  match (s.slot i).entry with
  | none => s
  | some e => (s.resyncArmedSteps i e t skipped).closeAdmission i

/-- T lies inside the window of an ACTIVE SPAN's current occurrence (R56). -/
def Entry.inStampedWindow (e : Entry) (stop : DayMinute) (m : Minute) : Bool :=
  match e.stamp with
  | none => false
  | some stamp => inWindow stamp.date stamp.time stop m

/-- The entry's occurrence ends at the visit, which continues with it when it has become ARMED (R55). -/
def State.endAndContinue (s : State) (i : SlotNo) (t : Moment) (skipped : Skipped) : State :=
  let s' := s.endOccurrence i
  match (s'.slot i).entry with
  | none => s'
  | some e =>
    match e.state with
    | .armed => s'.resyncArmed i t skipped
    | .active => s'
    | .suspended => s'
    | .spent => s'

/-- A resync's visit to an ACTIVE SPAN (R56). -/
def State.resyncActiveSpan (s : State) (i : SlotNo) (e : Entry) (stop : DayMinute) (t : Moment) (skipped : Skipped) : State :=
  if e.inStampedWindow stop t.minuteOf then
    let s' := s.markEntry i { e with interrupted := false }
    if e.held then s' else s'.placeEntryClaim i
  else s.endAndContinue i t skipped

/-- A resync's visit to an ACTIVE EVENT: only a restart-pending one ends (R57). -/
def State.resyncActiveEvent (s : State) (i : SlotNo) (e : Entry) (t : Moment) (skipped : Skipped) : State :=
  if e.interrupted then s.endAndContinue i t skipped else s

/-- A resync's visit to an ACTIVE entry (R55 to R57). -/
def State.resyncActive (s : State) (i : SlotNo) (t : Moment) (skipped : Skipped) : State :=
  match (s.slot i).entry with
  | none => s
  | some e =>
    match e.defn.kind with
    | .span stop => s.resyncActiveSpan i e stop t skipped
    | .event _ => s.resyncActiveEvent i e t skipped

/-- The visit of a resync with captured time `t` to slot `i` (R55). -/
def State.resyncSlot (s : State) (i : SlotNo) (t : Moment) (skipped : Skipped) : State :=
  match (s.slot i).entry with
  | none => s
  | some e =>
    match e.state with
    | .suspended => s
    | .spent => s
    | .armed => s.resyncArmed i t skipped
    | .active => (if e.defn.pastUntil t.date then s.setFinal i else s).resyncActive i t skipped

/-! ### The engine's work (R40, R47, R53, R54, R62, R64, R65) -/

/-- A minute sweep starts for the clock's current minute, with the cursor at 0 (R40). -/
def State.startSweep (s : State) : State :=
  s.withEngine { s.engine with work := .sweep s.clock.now 0, boundaryNoted := false }

/-- A resync starts, or restarts, with its cursor at 0: it captures T and fixes its skipped interval (R54, R61). A sweep in
flight is abandoned by it, and the batch goes on (R64, R68). -/
def State.startResync (s : State) : State :=
  s.withEngine
    { s.engine with
      work := .resync s.clock.moment (skippedInterval s.engine.lastEvaluated s.clock.moment) 0
      resyncRequested := false }

/-- A resync is requested: it starts at once, or when the wipe that holds the table completes (R53, R65). -/
def State.requestResync (s : State) : State :=
  if s.engine.wipe.isSome then s.withEngine { s.engine with resyncRequested := true } else s.startResync

/-- A minute boundary reaches the engine: a sweep starts, or the boundary is noted (R40, R65). -/
def State.engineBoundary (s : State) : State :=
  if s.engine.work.inFlight || s.engine.wipe.isSome then s.withEngine { s.engine with boundaryNoted := true }
  else s.startSweep

/-- Work has completed up to the minute `m`: the last evaluated minute is `m`, the recorded tops are reported, and a noted
boundary starts a sweep for the clock's current minute (R47, R62). -/
def State.completeWork (s : State) (m : Minute) : State :=
  let s' := (s.withEngine { s.engine with work := .idle, lastEvaluated := some m }).flushBatch
  if s'.engine.boundaryNoted then s'.startSweep else s'

/-! ### Dates and minute boundaries (R28 to R32, R152, R162) -/

/-- Today's day class, recomputed from the clock's date and the records (R28). -/
def State.recomputeClass (s : State) : State :=
  s.withDates { s.dates with today := dayClassOf s.dates.records s.clock.date }

/-- A date change to the clock's date: past records are retired, then today's class is recomputed (R29, R30, R31). -/
def State.dateChange (s : State) : State :=
  (s.withDates { s.dates with records := retirePast s.dates.records s.clock.date }).recomputeClass

/-- A boundary calls for TICK: `minute` tells whether it is a minute boundary, which brought the clock to its present time
(R162). -/
def State.tickCallsFor (s : State) (minute : Bool) : Bool :=
  match s.attention.tickPeriod with
  | .off => false
  | .second => true
  | .minute => minute
  | .hour => minute && decide (s.clock.minute = 0)
  | .day => minute && decide (s.clock.hour = 0 ∧ s.clock.minute = 0)

/-- TICK is raised where the tick period calls for it (R162). -/
def State.tickAt (s : State) (minute : Bool) : State :=
  if s.tickCallsFor minute then s.raiseTick else s

/-- A minute boundary that has brought the clock to its present minute: a date change first, then the engine, then TICK
(R152). -/
def State.minuteBoundary (s : State) (dateChanged : Bool) : State :=
  ((if dateChanged then s.dateChange else s).engineBoundary).tickAt true

/-- A date command has changed the records: when today's class changes while the clock is VALID, a resync is requested
(R32). -/
def State.recordsChanged (s : State) (records : List DateRecord) : State :=
  let s' := (s.withDates { s.dates with records := records }).recomputeClass
  if s'.dates.today ≠ s.dates.today ∧ s.clock.valid then s'.requestResync else s'

/-! ### Outputs -/

/-- The commanded action gives the active level at this moment (R122, R123). -/
def ChannelRun.activeLevel (run : ChannelRun) : Bool :=
  match run.commanded with
  | .off => false
  | .on => true
  | .pulse _ =>
    match run.wave with
    | .onPhase => true
    | .steady => false
    | .offPhase => false
    | .resting => false

/-- The level of pin CH `c`, true for high; the pin is driven while the supply is NORMAL (R122). -/
def State.chPin (s : State) (c : Chan) : Option Bool :=
  if s.supply = .normal then some ((s.channel c).activeLevel != (s.config c).activeLow) else none

end Sys2Proof.Machine
end

