-- ==== Sys2Proof/Machine/Service.lean ====
section
/-! DEFINITION. How an owner takes the request that a port's slot holds PENDING and places its response (R71, R191, R198). A
command's body reads the payload and gives the new state with a reply; a refusal gives back the state it was given. -/

namespace Sys2Proof.Machine

/-- The request that the slot of port `p` holds PENDING. -/
def State.request (s : State) (p : Port) : Option Request :=
  match (s.port p).slot with
  | .pending r => some r
  | .idle => none
  | .receiving _ => none
  | .ready _ => none

/-- Changes what the slot of port `p` holds; the PORT group follows the main slot (R171). -/
def State.setPortSlot (s : State) (p : Port) (slot : PortSlot) : State :=
  s.irqFollow (s.withPort p { s.port p with slot := slot })

/-- The owner places its response in the slot, which becomes READY; the request's tag is echoed (R191). -/
def State.respond (s : State) (p : Port) (reply : Reply) : State :=
  match s.request p with
  | none => s
  | some r => s.setPortSlot p (.ready (responseFrame r.tag reply))

/-- A refused command: the state as it was, and the status with no payload (R198). -/
def State.refuse (s : State) (status : Status) : State × Reply :=
  (s, Reply.refusal status)

/-- The body of a command: from the payload and the state, the new state and the reply. -/
abbrev Body :=
  List Byte → State → State × Reply

/-- The owner of command `c` takes the request of port `p` and answers it. Nothing happens when the part does not run or the
port's slot holds no such request PENDING (notes/assumptions/2.md). -/
def State.serve (s : State) (c : Command) (p : Port) (body : Body) : State :=
  if s.running then
    match s.request p with
    | none => s
    | some r => if r.code = c.code then (body r.payload s).1.respond p (body r.payload s).2 else s
  else s

/-- The table takes a table command: no resync and no wipe is in flight (R71). -/
def State.tableFree (s : State) : Bool :=
  s.engine.wipe.isNone && !s.engine.work.isResync

/-- The table takes a table command; while a resync or a wipe is in flight the request waits in its slot (R63, R71). -/
def State.serveTable (s : State) (c : Command) (p : Port) (body : Body) : State :=
  if s.tableFree then s.serve c p body else s

/-- The refusals DENIED, BADARG, NOTFOUND and STALE of a command that changes an existing entry, in that order; then `k` carries
the command out. The ownership tests are made when the payload is long enough to hold the slot number (R70, R72). -/
def State.withHandle {α : Type} (s : State) (p : Port) (payload : List Byte) (handle : Option (SlotNo × Byte × α))
    (k : SlotNo → Entry → α → State × Reply) : State × Reply :=
  if !payload.isEmpty && !s.mayChange p (slotAt payload) then s.refuse .denied
  else
    match handle with
    | none => s.refuse .badArg
    | some (i, gen, x) =>
      match (s.slot i).entry with
      | none => s.refuse .notFound
      | some e => if (s.slot i).gen ≠ gen then s.refuse .stale else k i e x

end Sys2Proof.Machine
end

