-- ==== Sys2Proof/Machine/AttentionCommands.lean ====
section
/-! DEFINITION. The commands of the attention unit and of the panel policy, and the end of an IRQN pulse (sections 9.2 to 9.6 and
11.5). None needs a VALID clock and none waits for the table (R164, R200). -/

namespace Sys2Proof.Machine

/-- The code of a selected group, 0 for NONE (R206). -/
def groupCode : Option Group → Byte
  | none => 0
  | some g => g.code

/-- NEXT_CAUSE (R173). -/
def nextCauseBody : Body := fun payload s =>
  if !payload.isEmpty then s.refuse .badArg else (s, Reply.ok [groupCode s.selectGroup, s.pendingGroups])

/-- The lowest slot that is a member of the entry notice set. -/
def State.lowestNotice (s : State) : Option SlotNo :=
  (List.finRange 256).find? fun i => s.attention.entryNotices[i] != 0

/-- The SPENT notice of a SPENT autofree entry frees it (R167). -/
def State.freeTaken (s : State) (i : SlotNo) (causes : BitVec 5) : State :=
  match (s.slot i).entry with
  | none => s
  | some e => if causes &&& EntryCause.spent.bit ≠ 0 ∧ e.state = .spent ∧ e.defn.autofree then s.freeSlot i else s

/-- NEXT_ENTRY_NOTICE (R167). -/
def nextEntryNoticeBody : Body := fun payload s =>
  if !payload.isEmpty then s.refuse .badArg
  else
    match s.lowestNotice with
    | none => (s, Reply.ok [0, 0, 0, 0, 0])
    | some i =>
      let causes := s.attention.entryNotices[i]
      let s' := (s.dropEntryNotice i).freeTaken i causes
      (s', Reply.ok [1, byteOf i.val, byteOf causes.toNat, (s'.slot i).gen, (s'.slot i).stateCode])

/-- An accepted CONFIGURE_ATTENTION; IRQN follows the new enables and mode (R172, R174, R175). -/
def State.configureAttention (s : State) (cfg : AttentionConfig) : State :=
  s.irqFollow
    (s.withAttention { s.attention with groups := cfg.groups, irqMode := cfg.irqMode, tickPeriod := cfg.tickPeriod })

/-- CONFIGURE_ATTENTION (R172). -/
def configureAttentionBody (p : Port) : Body := fun payload s =>
  if !s.allows p .config then s.refuse .denied
  else
    match readAttentionConfig payload with
    | none => s.refuse .badArg
    | some cfg => (s.configureAttention cfg, Reply.ok [])

/-- The lowest channel that is a member of the channel notice set. -/
def State.lowestChannelNotice (s : State) : Option Chan :=
  allChannels.find? fun c => s.attention.channelNotices[c] != 0

/-- The member of channel `c` leaves the channel notice set (R168). -/
def State.dropChannelNotice (s : State) (c : Chan) : State :=
  s.irqFollow (s.withAttention { s.attention with channelNotices := s.attention.channelNotices.set c 0 })

/-- TAKE_CHANNEL_NOTICE (R168). -/
def takeChannelNoticeBody : Body := fun payload s =>
  if !payload.isEmpty then s.refuse .badArg
  else
    match s.lowestChannelNotice with
    | none => (s, Reply.ok [0, 0, 0])
    | some c => (s.dropChannelNotice c, Reply.ok [1, byteOf c.val, byteOf s.attention.channelNotices[c].toNat])

/-- The byte of one input in TAKE_INPUT_EVENTS (R208). -/
def InputRun.eventByte (r : InputRun) : Byte :=
  flagBit r.pressSeen 0 ||| flagBit r.releaseSeen 1 ||| flagBit r.stable 2

/-- All sixteen latches are cleared (R169). -/
def State.clearLatches (s : State) : State :=
  s.irqFollow { s with inputs := s.inputs.map fun r => { r with pressSeen := false, releaseSeen := false } }

/-- TAKE_INPUT_EVENTS (R169). -/
def takeInputEventsBody : Body := fun payload s =>
  if !payload.isEmpty then s.refuse .badArg
  else (s.clearLatches, Reply.ok (s.inputs.toList.map InputRun.eventByte))

/-- The set of clock causes as a byte: TICK bit 0, INVALID bit 1 (R206). -/
def State.clockCauses (s : State) : Byte :=
  flagBit s.attention.tickCause 0 ||| flagBit s.attention.invalidCause 1

/-- The clock causes named are cleared (R170). -/
def State.ackClock (s : State) (tick invalid : Bool) : State :=
  s.irqFollow
    (s.withAttention
      { s.attention with
        tickCause := s.attention.tickCause && !tick
        invalidCause := s.attention.invalidCause && !invalid })

/-- ACK_CLOCK (R170). -/
def ackClockBody : Body := fun payload s =>
  match readClockCauses payload with
  | none => s.refuse .badArg
  | some (tick, invalid) => (s.ackClock tick invalid, Reply.ok [s.clockCauses, (s.ackClock tick invalid).clockCauses])

/-- SET_PANEL_POLICY (R200): refused to the panel whatever the policy holds. -/
def setPanelPolicyBody (p : Port) : Body := fun payload s =>
  match p with
  | .panel => s.refuse .denied
  | .main =>
    match readPolicy payload with
    | none => s.refuse .badArg
    | some policy => (s.withPolicy policy, Reply.ok [byteOf s.policy.toNat, byteOf policy.toNat])

/-- The 50 µs are over and IRQN is released (R175). -/
def State.pulseEnds (s : State) : State :=
  if s.running then s.withAttention { s.attention with pulse := false } else s

/-! ### Meanings -/

def execNextCause (p : Port) (s : State) : Host.Outcome State Fault Refusal :=
  .next (s.serve .nextCause p nextCauseBody)

def execNextEntryNotice (p : Port) (s : State) : Host.Outcome State Fault Refusal :=
  .next (s.serve .nextEntryNotice p nextEntryNoticeBody)

def execConfigureAttention (p : Port) (s : State) : Host.Outcome State Fault Refusal :=
  .next (s.serve .configureAttention p (configureAttentionBody p))

def execTakeChannelNotice (p : Port) (s : State) : Host.Outcome State Fault Refusal :=
  .next (s.serve .takeChannelNotice p takeChannelNoticeBody)

def execTakeInputEvents (p : Port) (s : State) : Host.Outcome State Fault Refusal :=
  .next (s.serve .takeInputEvents p takeInputEventsBody)

def execAckClock (p : Port) (s : State) : Host.Outcome State Fault Refusal :=
  .next (s.serve .ackClock p ackClockBody)

def execSetPanelPolicy (p : Port) (s : State) : Host.Outcome State Fault Refusal :=
  .next (s.serve .setPanelPolicy p (setPanelPolicyBody p))

def execIrqnPulseEnd (s : State) : Host.Outcome State Fault Refusal :=
  .next s.pulseEnds

end Sys2Proof.Machine
end

