-- ==== Sys2Proof/Machine/ChannelCommands.lean ====
section
/-! DEFINITION. The commands of the channel arbiter and of the output stage (sections 5.5, 6.1 and 6.6). -/

namespace Sys2Proof.Machine

/-- An accepted CONFIGURE_CHANNEL: the settings are replaced, and the channel's runtime follows (R113, R114). -/
def State.configureChannel (s : State) (c : Chan) (cfg : ChannelConfig) : State :=
  (s.withConfig c cfg).withChannel c ((s.channel c).configure (s.config c) cfg (s.lastTop c))

/-- CONFIGURE_CHANNEL (R113). -/
def configureChannelBody (p : Port) : Body := fun payload s =>
  if !s.allows p .config then s.refuse .denied
  else
    match readChannelConfig payload with
    | none => s.refuse .badArg
    | some (c, cfg) => (s.configureChannel c cfg, Reply.ok [((s.configureChannel c cfg).channel c).state.code])

/-- The claim reports from place `index` on, up to three (R131). -/
def State.claimPage (s : State) (c : Chan) (index : Nat) : List Claim :=
  ((s.list c).drop index).take Config.claimPage

/-- READ_CHANNEL (R131). -/
def readChannelBody : Body := fun payload s =>
  match readChannelIndex payload with
  | none => s.refuse .badArg
  | some (c, index) =>
    (s, Reply.ok
      (channelReport (s.config c) (s.channel c) s.pins.senses[c] (s.list c).length ++
        [byteOf (s.claimPage c index).length] ++ (s.claimPage c index).flatMap Claim.bytes))

/-- The claim a force places (R106). -/
def Force.claim (f : Force) (p : Port) : Claim :=
  { source := .port p, priority := f.priority, action := f.action, lifetime := f.lifetime, order := 0 }

/-- The place of a source's claim in a list, 0 for the top. -/
def placeOf (l : List Claim) (src : Source) : Nat :=
  l.findIdx fun c => decide (c.source = src)

/-- FORCE_CHANNEL (R105, R106). -/
def forceChannelBody (p : Port) : Body := fun payload s =>
  if !s.allows p .force then s.refuse .denied
  else
    match readForce payload with
    | none => s.refuse .badArg
    | some f =>
      if !s.clock.valid then s.refuse .noClock
      else if !s.keeps f.channel (f.claim p) then s.refuse .full
      else
        let s' := s.place f.channel (f.claim p)
        (s', Reply.ok [byteOf (placeOf (s'.list f.channel) (.port p)), byteOf (s'.list f.channel).length])

/-- RELEASE_CHANNEL (R107). -/
def releaseChannelBody (p : Port) : Body := fun payload s =>
  if !s.allows p .force then s.refuse .denied
  else
    match readChannelNo payload with
    | none => s.refuse .badArg
    | some c =>
      if (claimOf (s.list c) (.port p)).isNone then s.refuse .notFound
      else
        let s' := s.remove c (.port p)
        (s', Reply.ok [byteOf (s'.list c).length])

/-- A FAULTED channel returns to service on its target (R130). -/
def State.clearFault (s : State) (c : Chan) : State :=
  s.withChannel c ((s.channel c).intoService (s.config c) (s.target c))

/-- CLEAR_FAULT (R130). -/
def clearFaultBody (p : Port) : Body := fun payload s =>
  if !s.allows p .force then s.refuse .denied
  else
    match readChannelNo payload with
    | none => s.refuse .badArg
    | some c =>
      if (s.channel c).state ≠ .faulted then s.refuse .wrongState
      else (s.clearFault c, Reply.ok [((s.clearFault c).channel c).state.code])

/-! ### Meanings -/

def execConfigureChannel (p : Port) (s : State) : Host.Outcome State Fault Refusal :=
  .next (s.serve .configureChannel p (configureChannelBody p))

def execReadChannel (p : Port) (s : State) : Host.Outcome State Fault Refusal :=
  .next (s.serve .readChannel p readChannelBody)

def execForceChannel (p : Port) (s : State) : Host.Outcome State Fault Refusal :=
  .next (s.serve .forceChannel p (forceChannelBody p))

def execReleaseChannel (p : Port) (s : State) : Host.Outcome State Fault Refusal :=
  .next (s.serve .releaseChannel p (releaseChannelBody p))

def execClearFault (p : Port) (s : State) : Host.Outcome State Fault Refusal :=
  .next (s.serve .clearFault p (clearFaultBody p))

end Sys2Proof.Machine
end

