-- ==== Sys2Proof/Machine/ClockCommands.lean ====
section
/-! DEFINITION. The commands of the calendar clock and of the exception date set (sections 2.3 and 8.4). -/

namespace Sys2Proof.Machine

/-! ### The clock (R157 to R161) -/

/-- The answer to READ_CLOCK: date, time, weekday, today's class, validity, timebase state and work in flight (R157, R208). -/
def State.clockReading (s : State) : List Byte :=
  s.clock.date.bytes ++ [byteOf s.clock.hour, byteOf s.clock.minute, byteOf s.clock.second,
    byteOf s.clock.date.weekday.val, byteOf s.dates.today.code, flagByte s.clock.valid, s.timebase.state.code,
    s.engine.work.code]

/-- READ_CLOCK (R157). -/
def readClockBody : Body := fun payload s =>
  if !payload.isEmpty then s.refuse .badArg else (s, Reply.ok s.clockReading)

/-- The sub-second divider restarts from the start of a second (R149). -/
def State.restartDivider (s : State) : State :=
  s.withTimebase { s.timebase with subSecond := 0 }

/-- The effects of an accepted SET_CLOCK, in their order: the clock takes the value and is VALID, the divider restarts, the
date set takes a date change, the engine a resync request (R159). -/
def State.applySetClock (s : State) (t : Moment) : State :=
  ((((s.withClock { date := t.date, hour := t.time.hour, minute := t.time.minute, second := t.second, valid := true })
    ).restartDivider).dateChange).requestResync

/-- SET_CLOCK (R158, R159). -/
def setClockBody (p : Port) : Body := fun payload s =>
  if !s.allows p .calendar then s.refuse .denied
  else
    match readDateTime payload with
    | none => s.refuse .badArg
    | some t => if s.timebase.state ≠ .running then s.refuse .noClock else (s.applySetClock t, Reply.ok [])

/-- The effects of a SNAP_MINUTE on a VALID clock: with seconds 0 to 29 the seconds become 0; with 30 to 59 a minute boundary is
taken at once (R161). -/
def State.applySnap (s : State) : State :=
  if s.clock.second < 30 then (s.withClock { s.clock with second := 0 }).restartDivider
  else ((s.withClock s.clock.advanceMinute).restartDivider).minuteBoundary s.clock.atLastMinute

/-- SNAP_MINUTE (R161). -/
def snapMinuteBody (p : Port) : Body := fun payload s =>
  if !s.allows p .calendar then s.refuse .denied
  else if !payload.isEmpty then s.refuse .badArg
  else if !s.clock.valid then s.refuse .noClock
  else (s.applySnap, Reply.ok [])

/-! ### The exception date set (R33 to R36) -/

/-- ADD_DATE (R34). -/
def addDateBody (p : Port) : Body := fun payload s =>
  if !s.allows p .calendar then s.refuse .denied
  else
    match readDateRecord payload with
    | none => s.refuse .badArg
    | some r =>
      if s.clock.valid && r.date.before s.clock.date then s.refuse .badArg
      else if (recordFor s.dates.records r.date).isNone && decide (Config.dateCapacity ≤ s.dates.records.length) then
        s.refuse .full
      else (s.recordsChanged (insertRecord r s.dates.records), Reply.ok [])

/-- REMOVE_DATE (R35). -/
def removeDateBody (p : Port) : Body := fun payload s =>
  if !s.allows p .calendar then s.refuse .denied
  else
    match readDate payload with
    | none => s.refuse .badArg
    | some d =>
      if (recordFor s.dates.records d).isNone then s.refuse .notFound
      else (s.recordsChanged (removeRecord d s.dates.records), Reply.ok [])

/-- The records at places `start` to `start` plus 11 that exist (R36). -/
def State.datePage (s : State) (start : Nat) : List DateRecord :=
  (s.dates.records.drop start).take Config.datePage

/-- LIST_DATES (R36). -/
def listDatesBody : Body := fun payload s =>
  match readDateIndex payload with
  | none => s.refuse .badArg
  | some start =>
    (s, Reply.ok
      ([byteOf s.dates.records.length, byteOf (s.datePage start).length] ++ (s.datePage start).flatMap DateRecord.bytes))

/-! ### Meanings -/

def execReadClock (p : Port) (s : State) : Host.Outcome State Fault Refusal :=
  .next (s.serve .readClock p readClockBody)

def execSetClock (p : Port) (s : State) : Host.Outcome State Fault Refusal :=
  .next (s.serve .setClock p (setClockBody p))

def execSnapMinute (p : Port) (s : State) : Host.Outcome State Fault Refusal :=
  .next (s.serve .snapMinute p (snapMinuteBody p))

def execAddDate (p : Port) (s : State) : Host.Outcome State Fault Refusal :=
  .next (s.serve .addDate p (addDateBody p))

def execRemoveDate (p : Port) (s : State) : Host.Outcome State Fault Refusal :=
  .next (s.serve .removeDate p (removeDateBody p))

def execListDates (p : Port) (s : State) : Host.Outcome State Fault Refusal :=
  .next (s.serve .listDates p listDatesBody)

end Sys2Proof.Machine
end

