-- ==== Sys2Proof/Machine/TableCommands.lean ====
section
/-! DEFINITION. The eight table commands, the slot steps of a wipe and its completion, and the taking of table commands that
waited (chapter 4, R65, R71). -/

namespace Sys2Proof.Machine

/-! ### Creating and reading (R74 to R76) -/

/-- The entry that ADD_ENTRY creates (R74). -/
def newEntry (defn : Definition) (owner : Port) : Entry :=
  { defn := defn, owner := owner, state := .armed, remBudget := defn.budget, held := false, stamp := none,
    interrupted := false, final := false, endDue := none, remSeconds := 0, admissionDue := true, rejoin := false }

/-- The lowest EMPTY slot. -/
def State.lowestEmpty (s : State) : Option SlotNo :=
  (List.finRange 256).find? fun i => (s.slot i).entry.isNone

/-- ADD_ENTRY (R74, R75). -/
def addEntryBody (p : Port) : Body := fun payload s =>
  match readDescriptor payload with
  | none => s.refuse .badArg
  | some defn =>
    match s.lowestEmpty with
    | none => s.refuse .full
    | some i =>
      let s' := (s.stepEntry i (newEntry defn p)).admitAfterCommand i
      (s', Reply.ok [byteOf i.val, (s'.slot i).gen])

/-- READ_ENTRY (R76). -/
def readEntryBody : Body := fun payload s =>
  match readSlotNo payload with
  | none => s.refuse .badArg
  | some i =>
    match (s.slot i).entry with
    | none => s.refuse .notFound
    | some e => (s, Reply.ok (statusBlock i (s.slot i).gen e ++ e.defn.bytes))

/-! ### Modifying (R77 to R80) -/

/-- No timing field differs: kind with end or duration, channel, day set, start, from, until, budget and catch_up (R2, R77). -/
def Definition.sameTiming (a b : Definition) : Bool :=
  decide (a.kind = b.kind ∧ a.channel = b.channel ∧ a.daySet = b.daySet ∧ a.start = b.start ∧ a.fromDate = b.fromDate ∧
    a.untilDate = b.untilDate ∧ a.budget = b.budget ∧ a.catchUp = b.catchUp)

/-- A held claim takes the entry's new priority and action where it stands (R78, R94). -/
def State.updateEntryClaim (s : State) (i : SlotNo) (e : Entry) (defn : Definition) : State :=
  if e.state = .active ∧ e.held then
    s.setList defn.channel (updateInList (s.list defn.channel) (.entry i) defn.priority defn.action)
  else s

/-- A SPENT entry that the command left with autofree set is freed unless its SPENT cause waits in the notice set (R80). -/
def State.freeAfterModify (s : State) (i : SlotNo) : State :=
  match (s.slot i).entry with
  | none => s
  | some e =>
    if e.state = .spent ∧ e.defn.autofree ∧ s.attention.entryNotices[i] &&& EntryCause.spent.bit = 0 then s.freeSlot i else s

/-- A modification of in-place fields alone (R78, R80). -/
def State.modifyInPlace (s : State) (i : SlotNo) (e : Entry) (defn : Definition) : State :=
  ((s.stepEntry i { e with defn := defn }).updateEntryClaim i e defn).freeAfterModify i

/-- The state in which a timing modification leaves an entry (R79). -/
def EntryState.afterRetiming : EntryState → EntryState
  | .armed => .armed
  | .active => .armed
  | .spent => .armed
  | .suspended => .suspended

/-- The entry after a timing modification (R79). -/
def Entry.retimed (e : Entry) (defn : Definition) : Entry :=
  { e.leaveActive e.state.afterRetiming with
    defn := defn, remBudget := defn.budget, stamp := none, admissionDue := true, rejoin := false }

/-- A modification with a timing difference: a running occurrence ends early with ENDED judged by the new notify, and an
entry that is now ARMED is admitted (R79). -/
def State.modifyTiming (s : State) (i : SlotNo) (e : Entry) (defn : Definition) : State :=
  let s1 := (s.withdrawEntryClaim i).stepEntry i (e.retimed defn)
  let s2 := if e.state = .active then s1.raiseEntry i .ended else s1
  if e.state = .suspended then s2 else s2.admitAfterCommand i

/-- What a MODIFY_ENTRY with the descriptor `defn` makes of the entry, by what differs (R77). -/
def State.modify (s : State) (i : SlotNo) (e : Entry) (defn : Definition) : State :=
  if defn = e.defn then s
  else if defn.sameTiming e.defn then s.modifyInPlace i e defn
  else s.modifyTiming i e defn

/-- MODIFY_ENTRY (R77). -/
def modifyEntryBody (p : Port) : Body := fun payload s =>
  s.withHandle p payload (readModify payload) fun i e defn =>
    let s' := s.modify i e defn
    (s', Reply.ok [(s'.slot i).gen, (s'.slot i).stateCode])

/-! ### Suspending, resuming, deleting (R81 to R85) -/

/-- A handle with nothing after it. -/
def readBareHandle (payload : List Byte) : Option (SlotNo × Byte × Unit) :=
  (readHandle payload).map fun h => (h.1, h.2, ())

/-- SUSPEND_ENTRY on an ARMED entry (R81). -/
def State.suspendArmed (s : State) (i : SlotNo) (e : Entry) : State :=
  s.stepEntry i { e with state := .suspended, admissionDue := false, rejoin := false }

/-- SUSPEND_ENTRY on an ACTIVE entry: the occurrence is cut short and may be rejoined (R82). -/
def State.suspendActive (s : State) (i : SlotNo) (e : Entry) : State :=
  ((s.withdrawEntryClaim i).raiseEntry i .ended).stepEntry i { e.leaveActive .suspended with interrupted := true }

/-- SUSPEND_ENTRY (R81, R82). -/
def suspendEntryBody (p : Port) : Body := fun payload s =>
  s.withHandle p payload (readBareHandle payload) fun i e _ =>
    match e.state with
    | .armed => (s.suspendArmed i e, Reply.ok [((s.suspendArmed i e).slot i).gen])
    | .active => (s.suspendActive i e, Reply.ok [((s.suspendActive i e).slot i).gen])
    | .suspended => s.refuse .wrongState
    | .spent => s.refuse .wrongState

/-- A SUSPENDED entry becomes ARMED with admission due, which is then handled as R51 states (R83). -/
def State.resume (s : State) (i : SlotNo) (e : Entry) (rejoin : Bool) : State :=
  (s.stepEntry i { e with state := .armed, admissionDue := true, rejoin := rejoin }).admitAfterCommand i

/-- RESUME_ENTRY (R83, R84). -/
def resumeEntryBody (p : Port) : Body := fun payload s =>
  s.withHandle p payload (readResume payload) fun i e rejoin =>
    match e.state with
    | .suspended => (s.resume i e rejoin, Reply.ok [((s.resume i e rejoin).slot i).gen])
    | .armed => s.refuse .wrongState
    | .active => s.refuse .wrongState
    | .spent => s.refuse .wrongState

/-- A non-EMPTY slot is emptied in one step, its held claim removed (R85, R88). -/
def State.deleteSlot (s : State) (i : SlotNo) : State :=
  (s.withdrawEntryClaim i).freeSlot i

/-- DELETE_ENTRY (R85). -/
def deleteEntryBody (p : Port) : Body := fun payload s =>
  s.withHandle p payload (readBareHandle payload) fun i _ _ =>
    (s.deleteSlot i, Reply.ok [((s.deleteSlot i).slot i).gen])

/-! ### Finding (R86, R87) -/

/-- A slot matches a filter; an EMPTY slot has neither channel nor owner (R86). -/
def Filter.admits (f : Filter) (slot : Slot) : Bool :=
  f.states.getLsbD slot.stateCode.toNat &&
    (match f.channel with
      | none => true
      | some c =>
        match slot.entry with
        | none => false
        | some e => decide (e.defn.channel.val = c)) &&
    match f.owner with
    | none => true
    | some p =>
      match slot.entry with
      | none => false
      | some e => decide (e.owner = p)

/-- The slots reported: the first 24 that match from the cursor on (R87). -/
def State.found (s : State) (f : Filter) : List SlotNo :=
  ((List.finRange 256).filter fun i => decide (f.cursor ≤ i.val) && f.admits (s.slot i)).take Config.findPage

/-- The next cursor: the number after the last slot when 24 were collected, otherwise 256 (R87). -/
def nextCursor (found : List SlotNo) : Nat :=
  if found.length = Config.findPage then
    match found.getLast? with
    | none => 256
    | some i => i.val + 1
  else 256

/-- FIND_ENTRIES (R86, R87). -/
def findEntriesBody : Body := fun payload s =>
  match readFilter payload with
  | none => s.refuse .badArg
  | some f =>
    (s, Reply.ok
      ([byteOf (s.found f).length] ++ (s.found f).flatMap (fun i => [byteOf i.val, (s.slot i).gen]) ++
        bytes2 (nextCursor (s.found f))))

/-! ### Wiping (R65, R88) -/

/-- WIPE_TABLE is refused DENIED to a panel without OTHERS and BADARG with a payload (R88). -/
def State.wipeRefusal (s : State) (p : Port) (payload : List Byte) : Option Status :=
  if !s.allows p .others then some .denied else if !payload.isEmpty then some .badArg else none

/-- The table takes a WIPE_TABLE: refused, or it holds the table while its request stays PENDING (R88). -/
def State.takeWipe (s : State) (p : Port) : State :=
  if s.tableFree && s.running then
    match s.request p with
    | none => s
    | some r =>
      if r.code = Command.wipeTable.code then
        match s.wipeRefusal p r.payload with
        | some status => s.respond p (Reply.refusal status)
        | none => s.withEngine { s.engine with wipe := some { port := p, cursor := 0 } }
      else s
  else s

/-- The slot the wipe takes next, if it has not reached the end. -/
def cursorSlot (cursor : Nat) : Option SlotNo :=
  if h : cursor < 256 then some ⟨cursor, h⟩ else none

/-- A wipe's step on one slot: a non-EMPTY slot is emptied, an EMPTY slot is passed over (R88). -/
def State.wipeSlotStep (s : State) (i : SlotNo) : State :=
  match (s.slot i).entry with
  | none => s
  | some _ => s.deleteSlot i

/-- The slot step at the wipe's cursor, if a wipe has a slot left (R88). -/
def State.wipeStep (s : State) : State :=
  if s.running then
    match s.engine.wipe with
    | none => s
    | some w =>
      match cursorSlot w.cursor with
      | none => s
      | some i =>
        let s' := s.wipeSlotStep i
        s'.withEngine { s'.engine with wipe := some { w with cursor := w.cursor + 1 } }
  else s

/-- The wipe is over: a requested resync starts, abandoning a sweep in flight; otherwise a noted boundary is swept when no sweep
is in flight (R65). -/
def State.afterWipe (s : State) : State :=
  if s.engine.resyncRequested then s.startResync
  else if s.engine.boundaryNoted && !s.engine.work.inFlight then s.startSweep
  else s

/-! ### Taking the commands that waited (R62, R71) -/

/-- Takes the table command that waits in the slot of port `p`, if the table is free for it. -/
def State.takeWaiting (s : State) (p : Port) : State :=
  match s.request p with
  | none => s
  | some r =>
    match commandOf r.code with
    | some .addEntry => s.serveTable .addEntry p (addEntryBody p)
    | some .readEntry => s.serveTable .readEntry p readEntryBody
    | some .modifyEntry => s.serveTable .modifyEntry p (modifyEntryBody p)
    | some .suspendEntry => s.serveTable .suspendEntry p (suspendEntryBody p)
    | some .resumeEntry => s.serveTable .resumeEntry p (resumeEntryBody p)
    | some .deleteEntry => s.serveTable .deleteEntry p (deleteEntryBody p)
    | some .findEntries => s.serveTable .findEntries p findEntriesBody
    | some .wipeTable => s.takeWipe p
    | _ => s

/-- Takes the waiting table commands of the ports named, in that order. -/
def State.takeAllWaiting (s : State) (takes : List Port) : State :=
  takes.foldl State.takeWaiting s

/-- The wipe completes when its cursor has passed every slot: OK is placed, a requested resync or noted boundary is served, and
the commands that waited are taken (R65, R71, R88). -/
def State.completeWipe (s : State) (takes : List Port) : State :=
  if s.running then
    match s.engine.wipe with
    | none => s
    | some w =>
      if w.cursor < 256 then s
      else
        (((s.withEngine { s.engine with wipe := none }).respond w.port (Reply.ok [])).afterWipe).takeAllWaiting takes
  else s

/-! ### Meanings -/

def execAddEntry (p : Port) (s : State) : Host.Outcome State Fault Refusal :=
  .next (s.serveTable .addEntry p (addEntryBody p))

def execReadEntry (p : Port) (s : State) : Host.Outcome State Fault Refusal :=
  .next (s.serveTable .readEntry p readEntryBody)

def execModifyEntry (p : Port) (s : State) : Host.Outcome State Fault Refusal :=
  .next (s.serveTable .modifyEntry p (modifyEntryBody p))

def execSuspendEntry (p : Port) (s : State) : Host.Outcome State Fault Refusal :=
  .next (s.serveTable .suspendEntry p (suspendEntryBody p))

def execResumeEntry (p : Port) (s : State) : Host.Outcome State Fault Refusal :=
  .next (s.serveTable .resumeEntry p (resumeEntryBody p))

def execDeleteEntry (p : Port) (s : State) : Host.Outcome State Fault Refusal :=
  .next (s.serveTable .deleteEntry p (deleteEntryBody p))

def execFindEntries (p : Port) (s : State) : Host.Outcome State Fault Refusal :=
  .next (s.serveTable .findEntries p findEntriesBody)

def execWipeTable (p : Port) (s : State) : Host.Outcome State Fault Refusal :=
  .next (s.takeWipe p)

def execWipeSlot (s : State) : Host.Outcome State Fault Refusal :=
  .next s.wipeStep

def execWipeComplete (takes : List Port) (s : State) : Host.Outcome State Fault Refusal :=
  .next (s.completeWipe takes)

end Sys2Proof.Machine
end

