-- ==== Sys2Proof/Machine/Engine.lean ====
section
/-! DEFINITION. The engine's steps: the visits and completions of the minute sweep and of the resync (sections 3.2, 3.6 and 3.7). A
visit is taken while the part runs; a wipe holds the sweep off until it completes (R65). -/

namespace Sys2Proof.Machine

/-- The sweep's visit to the slot its cursor names; the cursor then moves on (R41). -/
def State.sweepStep (s : State) : State :=
  if s.running && s.engine.wipe.isNone then
    match s.engine.work with
    | .idle => s
    | .resync _ _ _ => s
    | .sweep m cursor =>
      match cursorSlot cursor with
      | none => s
      | some i =>
        let s' := s.sweepSlot i m
        s'.withEngine { s'.engine with work := .sweep m (cursor + 1) }
  else s

/-- The sweep completes when its cursor has reached 256 (R47). -/
def State.sweepEnds (s : State) : State :=
  if s.running && s.engine.wipe.isNone then
    match s.engine.work with
    | .idle => s
    | .resync _ _ _ => s
    | .sweep m cursor => if cursor < 256 then s else s.completeWork m
  else s

/-- The resync's visit to the slot its cursor names; the cursor then moves on (R55). -/
def State.resyncStep (s : State) : State :=
  if s.running then
    match s.engine.work with
    | .idle => s
    | .sweep _ _ => s
    | .resync t skipped cursor =>
      match cursorSlot cursor with
      | none => s
      | some i =>
        let s' := s.resyncSlot i t skipped
        s'.withEngine { s'.engine with work := .resync t skipped (cursor + 1) }
  else s

/-- The resync completes when its cursor has reached 256, and the table commands that waited are taken (R62). -/
def State.resyncEnds (s : State) (takes : List Port) : State :=
  if s.running then
    match s.engine.work with
    | .idle => s
    | .sweep _ _ => s
    | .resync t _ cursor => if cursor < 256 then s else (s.completeWork t.minuteOf).takeAllWaiting takes
  else s

def execSweepVisit (s : State) : Host.Outcome State Fault Refusal :=
  .next s.sweepStep

def execSweepComplete (s : State) : Host.Outcome State Fault Refusal :=
  .next s.sweepEnds

def execResyncVisit (s : State) : Host.Outcome State Fault Refusal :=
  .next s.resyncStep

def execResyncComplete (takes : List Port) (s : State) : Host.Outcome State Fault Refusal :=
  .next (s.resyncEnds takes)

end Sys2Proof.Machine
end

