-- ==== Sys2Proof/Machine/InputUnit.lean ====
section
/-! DEFINITION. The input unit: its two commands, its pins and debounce timers, and what a PRESS and a RELEASE do (chapter 7). -/

namespace Sys2Proof.Machine

/-- The channels of a mask, in ascending order. -/
def maskChannels (mask : BitVec 24) : List Chan :=
  allChannels.filter fun c => mask.getLsbD c.val

/-- The input's claim leaves the list of every channel where one stands (R136). -/
def State.withdrawInput (s : State) (k : InputNo) : State :=
  allChannels.foldl (fun t c => t.remove c (.input k)) s

/-- The debounce timer after a BIND_INPUT: one that runs starts again with the new time (R136). DESIGN CHOICE
(notes/assumptions/5.md): one that has counted its last tick is an event that has come with the command, waits for its expiry as
before, and is taken second, under the new binding, as R144 has it for the two in that order. -/
def restartDebounce (left : Option Nat) (debounce : Byte) : Option Nat :=
  match left with
  | none => none
  | some 0 => some 0
  | some (_ + 1) => some debounce.toNat

/-- An accepted BIND_INPUT: the input's claims are removed, the binding is stored, and a running debounce timer starts again
with the new time (R136, R144). -/
def State.bindInput (s : State) (k : InputNo) (b : Binding) : State :=
  let s' := (s.withdrawInput k).withBinding k b
  s'.withInput k { s'.input k with debounceLeft := restartDebounce (s'.input k).debounceLeft b.debounce }

/-- BIND_INPUT (R135). -/
def bindInputBody (p : Port) : Body := fun payload s =>
  if !s.allows p .config then s.refuse .denied
  else
    match readBindInput payload with
    | none => s.refuse .badArg
    | some (k, b) => (s.bindInput k b, Reply.ok [])

/-- The channels whose lists hold a claim of input `k` (R146). -/
def State.standing (s : State) (k : InputNo) : BitVec 24 :=
  allChannels.foldl
    (fun m c => if (claimOf (s.list c) (.input k)).isSome then m ||| BitVec.ofNat 24 (2 ^ c.val) else m) 0

/-- The stable level of input `k` is its binding's active level (R138). -/
def State.inputActive (s : State) (k : InputNo) : Bool :=
  (s.input k).stable != (s.binding k).lowActive

/-- The ticks left that READ_INPUT shows: 0 is idle. A timer whose last tick is counted and whose expiry is still to be taken shows
that tick as left, since the debounce is not idle while the pin differs from the stable level (R146; notes/assumptions/5.md). -/
def debounceShown (left : Option Nat) : Byte :=
  match left with
  | none => 0
  | some 0 => 1
  | some (n + 1) => byteOf (n + 1)

/-- The answer to READ_INPUT (R146, R208). Its pin level byte is 1 for HIGH and 0 for LOW: DESIGN CHOICE, since chapter 12 gives
the two levels no code (notes/assumptions/24.md). -/
def State.inputReading (s : State) (k : InputNo) : List Byte :=
  (s.binding k).bytes ++
    [flagByte s.pins.inputs[k], flagBit (s.input k).stable 0 ||| flagBit (s.inputActive k) 1,
      debounceShown (s.input k).debounceLeft, flagBit (s.input k).pressSeen 0 ||| flagBit (s.input k).releaseSeen 1] ++
    bytes3 (s.standing k).toNat

/-- READ_INPUT (R146). -/
def readInputBody : Body := fun payload s =>
  match readInputNo payload with
  | none => s.refuse .badArg
  | some k => (s, Reply.ok (s.inputReading k))

/-! ### Events on claims (R139 to R143) -/

/-- The lifetime of a claim placed in a mode (R93, R139). -/
def Mode.lifetime : Mode → Lifetime
  | .momentary => .momentary
  | .timed minutes => .timed minutes (minutes * 60)
  | .toggle => .latch
  | .untilEdge => .untilEdge

/-- The claim that input `k` places under a binding (R139). -/
def Binding.claim (b : Binding) (k : InputNo) : Claim :=
  { source := .input k, priority := b.priority, action := b.action, lifetime := b.mode.lifetime, order := 0 }

/-- The input's claim is placed on channel `c`; one that is not kept raises DISPLACED for the channel (R97, R139). -/
def State.placeInputClaim (s : State) (k : InputNo) (c : Chan) : State :=
  let claim := (s.binding k).claim k
  if s.keeps c claim then s.place c claim else s.raiseChannel c .displaced

/-- Where the input's claim stands it is removed; where none stands it is placed (R142, R143). -/
def State.toggleInputClaim (s : State) (k : InputNo) (c : Chan) : State :=
  if (claimOf (s.list c) (.input k)).isSome then s.remove c (.input k) else s.placeInputClaim k c

/-- What a PRESS does on one channel of the mask, by the binding's mode. -/
def State.pressOn (s : State) (k : InputNo) (c : Chan) : State :=
  match (s.binding k).mode with
  | .momentary => s.placeInputClaim k c
  | .timed _ => s.placeInputClaim k c
  | .toggle => s.toggleInputClaim k c
  | .untilEdge => s.toggleInputClaim k c

/-- What a RELEASE does on one channel of the mask: it removes a MOMENTARY claim (R140). -/
def State.releaseOn (s : State) (k : InputNo) (c : Chan) : State :=
  match (s.binding k).mode with
  | .momentary => s.remove c (.input k)
  | .timed _ => s
  | .toggle => s
  | .untilEdge => s

/-- A qualified event acts on the list of each channel in the mask, when the binding is enabled and the clock is VALID (R139). -/
def State.actOnMask (s : State) (k : InputNo) (act : State → InputNo → Chan → State) : State :=
  if (s.binding k).enabled && s.clock.valid then
    (maskChannels (s.binding k).mask).foldl (fun t c => act t k c) s
  else s

/-! ### Qualification (R137, R138) -/

/-- The stable level takes the pin level and the timer becomes idle; a change to the active level is a PRESS, one away from it
a RELEASE, and its latch is set. -/
def State.qualify (s : State) (k : InputNo) : State :=
  let level := s.pins.inputs[k]
  if level != (s.binding k).lowActive then
    (s.irqFollow (s.withInput k { s.input k with stable := level, debounceLeft := none, pressSeen := true })).actOnMask k
      State.pressOn
  else
    (s.irqFollow (s.withInput k { s.input k with stable := level, debounceLeft := none, releaseSeen := true })).actOnMask k
      State.releaseOn

/-- The debounce timer of input `k` has counted its last tick; it runs only while the pin differs from the stable level
(R137). -/
def State.debounceDue (s : State) (k : InputNo) : Bool :=
  decide ((s.input k).debounceLeft = some 0) && decide (s.pins.inputs[k] ≠ (s.input k).stable)

/-- The debounce timer of input `k` expires (R137). -/
def State.debounceExpires (s : State) (k : InputNo) : State :=
  if s.running && s.debounceDue k then s.qualify k else s

/-- The pin takes a level. While the part runs, a level that departs from the stable level starts the debounce timer, and one
that returns to it stops the timer (R137). -/
def State.inputPin (s : State) (k : InputNo) (high : Bool) : State :=
  let s' := s.withPins { s.pins with inputs := s.pins.inputs.set k high }
  if !s.running then s'
  else if high = (s.input k).stable then s'.withInput k { s.input k with debounceLeft := none }
  else if (s.input k).debounceLeft = none then
    s'.withInput k { s.input k with debounceLeft := some (s.binding k).debounce.toNat }
  else s'

/-! ### Meanings -/

def execBindInput (p : Port) (s : State) : Host.Outcome State Fault Refusal :=
  .next (s.serve .bindInput p (bindInputBody p))

def execReadInput (p : Port) (s : State) : Host.Outcome State Fault Refusal :=
  .next (s.serve .readInput p readInputBody)

def execInputPinChange (k : InputNo) (high : Bool) (s : State) : Host.Outcome State Fault Refusal :=
  .next (s.inputPin k high)

def execDebounceExpiry (k : InputNo) (s : State) : Host.Outcome State Fault Refusal :=
  .next (s.debounceExpires k)

end Sys2Proof.Machine
end

