-- ==== Sys2Proof/Machine/Ports.lean ====
section
/-! DEFINITION. The transactions of the main port and the panel port: SUBMIT, request frames byte by byte, FETCH, POLL, bad kinds,
panel reads, and the conditions that begin and end transactions (sections 11.2, 11.3 and 11.6). -/

namespace Sys2Proof.Machine

/-- The port answers: the part runs and the port has regained its footing since the last main reset (R195, R202). -/
def State.answers (s : State) (p : Port) : Bool :=
  s.running && (s.port p).listening

/-! ### The outputs of a transaction -/

/-- The bytes the port gives out in a transaction (MISO, or SDA in a panel read). -/
def State.shiftOut (s : State) (p : Port) (bytes : List Byte) : State :=
  s.withPort p { s.port p with shifted := bytes }

/-- The acknowledgements of a panel write transaction, address first (R195); the main port gives none. -/
def State.acknowledge (s : State) (p : Port) (acks : List Bool) : State :=
  match p with
  | .main => s
  | .panel => s.withPanelBus { s.panelBus with acks := acks }

/-- One more byte of a write: acknowledged or not on the panel port, answered with 0xFF on the main port (R188, R195). -/
def State.byteTaken (s : State) (p : Port) (acked : Bool) : State :=
  match p with
  | .main => s.shiftOut .main (s.mainPort.shifted ++ [0xFF])
  | .panel => s.withPanelBus { s.panelBus with acks := s.panelBus.acks ++ [acked] }

/-- The acknowledgements of a panel write whose `n` bytes after the kind are ignored: its address, its kind when `known`, and no
later byte (R196). That the bytes after an unknown kind are not acknowledged: DEDUCED, since they are ignored
(notes/assumptions/10.md). -/
def ignoredWriteAcks (known : Bool) (n : Nat) : List Bool :=
  true :: known :: List.replicate n false

/-- What a write transaction leaves as the panel port's read selection (R196); the main port has none. -/
def State.select (s : State) (p : Port) (selection : Option Selection) : State :=
  match p with
  | .main => s
  | .panel => s.withPanelBus { s.panelBus with selection := selection }

/-! ### Ends of transactions (R190, R197) -/

/-- A transaction ends: a frame that is not whole is discarded, the slot returns to IDLE and TRUNCATED is set. -/
def State.endTransaction (s : State) (p : Port) : State :=
  match (s.port p).slot with
  | .receiving _ => s.withPort p { s.port p with slot := .idle, truncated := true }
  | .idle => s
  | .pending _ => s
  | .ready _ => s

/-! ### SUBMIT and the request frame (R188, R189, R191) -/

/-- The kind byte of a SUBMIT completes: an IDLE slot enters RECEIVING, any other slot keeps what it holds and REFUSED is
set. -/
def State.submitKind (s : State) (p : Port) : State :=
  match (s.port p).slot with
  | .idle => s.withPort p { s.port p with slot := .receiving [] }
  | .receiving _ => s.withPort p { s.port p with refused := true }
  | .pending _ => s.withPort p { s.port p with refused := true }
  | .ready _ => s.withPort p { s.port p with refused := true }

/-- A BADFRAME response, built by the port itself: the tag as received and an empty payload (R188). -/
def badFrame (frame : List Byte) : PortSlot :=
  .ready (responseFrame (byteAt frame 0) (Reply.refusal .badFrame))

/-- The request that a whole frame carries. -/
def requestOf (frame : List Byte) : Request :=
  { tag := byteAt frame 0, code := byteAt frame 1, payload := (frame.drop 3).dropLast }

/-- What a whole frame makes of the slot: BADFRAME when its CRC disagrees; otherwise PENDING, or UNKNOWN at once for a code the
part does not know (R188, R191). -/
def wholeFrame (frame : List Byte) : PortSlot :=
  if crc frame.dropLast ≠ byteAt frame (frame.length - 1) then badFrame frame
  else
    match commandOf (byteAt frame 1) with
    | none => .ready (responseFrame (byteAt frame 0) (Reply.refusal .unknown))
    | some _ => .pending (requestOf frame)

/-- What the bytes received so far make of the slot: damaged when the length byte is above 60, whole when the payload length
plus four bytes have arrived, still RECEIVING otherwise (R188). -/
def frameState (frame : List Byte) : PortSlot :=
  if 3 ≤ frame.length ∧ Config.maxPayload < natAt frame 2 then badFrame frame
  else if 3 ≤ frame.length ∧ frame.length = natAt frame 2 + 4 then wholeFrame frame
  else .receiving frame

/-- The byte that made the slot `slot` is acknowledged on the panel port: not when it made a BADFRAME (R195). -/
def byteAcked (frame : List Byte) (slot : PortSlot) : Bool :=
  decide (slot ≠ badFrame frame)

/-- One byte of a frame arrives in RECEIVING; a byte in any other slot state is ignored, and not acknowledged (R188, R195). -/
def State.frameByte (p : Port) (s : State) (b : Byte) : State :=
  match (s.port p).slot with
  | .receiving bytes =>
    let slot := frameState (bytes ++ [b])
    (s.setPortSlot p slot).byteTaken p (byteAcked (bytes ++ [b]) slot)
  | .idle => s.byteTaken p false
  | .pending _ => s.byteTaken p false
  | .ready _ => s.byteTaken p false

/-! ### FETCH and POLL (R192, R193, R196) -/

/-- A FETCH in which `n` bytes are clocked: the response frame, and 0xFF after its last byte, the slot returning to IDLE when
that byte has been shifted; 0xEE and then 0xFF when no response is ready. -/
def State.fetchBytes (s : State) (p : Port) (n : Nat) : State :=
  match (s.port p).slot with
  | .ready frame =>
    let s' := s.shiftOut p (frame.take n ++ List.replicate (n - frame.length) 0xFF)
    if frame.length ≤ n then s'.setPortSlot p .idle else s'
  | .idle => s.shiftOut p (List.take n (0xEE :: List.replicate (n - 1) 0xFF))
  | .receiving _ => s.shiftOut p (List.take n (0xEE :: List.replicate (n - 1) 0xFF))
  | .pending _ => s.shiftOut p (List.take n (0xEE :: List.replicate (n - 1) 0xFF))

/-- A POLL in which `n` bytes are clocked: the status byte, the pending-group summary, then 0xFF; a status byte shifted whole
clears the flags it showed. -/
def State.pollBytes (s : State) (p : Port) (n : Nat) : State :=
  let s' := s.shiftOut p (List.take n (s.statusByte p :: s.pendingGroups :: List.replicate (n - 2) 0xFF))
  if 1 ≤ n then s'.withPort p { s'.port p with refused := false, truncated := false, badKind := false } else s'

/-- The BADKIND flag is set (R194). -/
def State.setBadKind (s : State) (p : Port) : State :=
  s.withPort p { s.port p with badKind := true }

/-! ### Meanings -/

/-- A SUBMIT kind byte (R188, R189); on the panel port it is acknowledged and clears the read selection (R195, R196). -/
def State.submitOn (s : State) (p : Port) : State :=
  if s.answers p then (((s.submitKind p).select p none).shiftOut p []).acknowledge p [true, true] else s

def execSubmit (p : Port) (s : State) : Host.Outcome State Fault Refusal :=
  .next (s.submitOn p)

/-- The bytes of a request frame, each taken in turn (R188). -/
def State.receiveFrame (s : State) (p : Port) (bytes : List Byte) : State :=
  if s.answers p then bytes.foldl (State.frameByte p) s else s

def execRequestFrame (p : Port) (bytes : List Byte) (s : State) : Host.Outcome State Fault Refusal :=
  .next (s.receiveFrame p bytes)

/-- A SUBMIT transaction or write that ends before its frame is whole (R190, R197). -/
def execSubmitTruncated (p : Port) (s : State) : Host.Outcome State Fault Refusal :=
  .next (if s.answers p then s.endTransaction p else s)

/-- A FETCH: on the main port the whole transaction, on the panel port the write that leaves the read selection, whose `n` further
bytes are not acknowledged and are ignored (R192, R196). A kind byte begins a transaction, so the one before it has ended. -/
def State.fetchOn (s : State) (p : Port) (n : Nat) : State :=
  if s.answers p then
    match p with
    | .main => (s.endTransaction .main).fetchBytes .main n
    | .panel => ((s.endTransaction .panel).select .panel (some .fetch)).acknowledge .panel (ignoredWriteAcks true n)
  else s

def execFetch (p : Port) (n : Nat) (s : State) : Host.Outcome State Fault Refusal :=
  .next (s.fetchOn p n)

/-- A POLL: on the main port the whole transaction, on the panel port the write that leaves the read selection, whose `n` further
bytes are not acknowledged and are ignored (R193, R196). -/
def State.pollOn (s : State) (p : Port) (n : Nat) : State :=
  if s.answers p then
    match p with
    | .main => (s.endTransaction .main).pollBytes .main n
    | .panel => ((s.endTransaction .panel).select .panel (some .poll)).acknowledge .panel (ignoredWriteAcks true n)
  else s

def execPoll (p : Port) (n : Nat) (s : State) : Host.Outcome State Fault Refusal :=
  .next (s.pollOn p n)

/-- A kind byte the part does not know: BADKIND is set and the rest of the transaction is ignored; on the panel port it is not
acknowledged and clears the read selection (R194, R196). -/
def State.badKindOn (s : State) (p : Port) (kind : Byte) (n : Nat) : State :=
  if s.answers p && (kindOf kind).isNone then
    let s' := (s.endTransaction p).setBadKind p
    match p with
    | .main => s'.shiftOut .main (List.replicate n 0xFF)
    | .panel => (s'.select .panel none).acknowledge .panel (ignoredWriteAcks false n)
  else s

def execBadKind (p : Port) (kind : Byte) (n : Nat) (s : State) : Host.Outcome State Fault Refusal :=
  .next (s.badKindOn p kind n)

/-- A read transaction of `n` bytes on the panel port: it ends the transaction before it, uses the read selection and clears it,
or returns 0xFF and sets BADKIND when there is none (R196, R197). -/
def State.panelReadOn (s : State) (n : Nat) : State :=
  if s.answers .panel then
    let s' := (s.endTransaction .panel).select .panel none
    match s.panelBus.selection with
    | some .fetch => s'.fetchBytes .panel n
    | some .poll => s'.pollBytes .panel n
    | none => (s'.setBadKind .panel).shiftOut .panel (List.replicate n 0xFF)
  else s

def execPanelRead (n : Nat) (s : State) : Host.Outcome State Fault Refusal :=
  .next (s.panelReadOn n)

/-- The moment at which a port regains its footing; it ends the transaction before it (R197, R202). -/
def State.regainFooting (s : State) (p : Port) : State :=
  if s.running then
    let s' := s.endTransaction p
    s'.withPort p { s'.port p with listening := true }
  else s

/-- CSN rises: the main port's transaction ends (R187, R190, R202). -/
def execCsnRises (s : State) : Host.Outcome State Fault Refusal :=
  .next (s.regainFooting .main)

/-- A START condition on the panel bus begins a transaction (R197, R202). -/
def execStartCondition (s : State) : Host.Outcome State Fault Refusal :=
  .next (s.regainFooting .panel)

end Sys2Proof.Machine
end

