-- ==== Sys2Proof/Machine/SupplySteps.lean ====
section
/-! DEFINITION. The crystal, the loss of the clock's validity, the supply states, cold start, main reset and restart (sections 8.1
and 8.3, chapter 10). -/

namespace Sys2Proof.Machine

/-! ### Changes of the whole table -/

/-- An ACTIVE entry becomes ARMED in one step, keeping its stamp and remaining budget (R25, R153, R182). -/
def Slot.disarm (slot : Slot) : Slot :=
  match slot.entry with
  | none => slot
  | some e => if e.state = .active then { gen := slot.gen + 1, entry := some (e.leaveActive .armed) } else slot

/-- Held is cleared on an ACTIVE entry (R15, R25). -/
def Slot.clearHeld (slot : Slot) : Slot :=
  match slot.entry with
  | none => slot
  | some e => if e.state = .active then { slot with entry := some { e with held := false } } else slot

/-- A SPENT entry with autofree set becomes EMPTY, its generation advancing once (R182). -/
def Slot.freeSpent (slot : Slot) : Slot :=
  match slot.entry with
  | none => slot
  | some e => if e.state = .spent ∧ e.defn.autofree then { gen := slot.gen + 1, entry := none } else slot

/-- An ACTIVE entry is marked restart-pending; its generation does not advance (R183). -/
def Slot.markRestart (slot : Slot) : Slot :=
  match slot.entry with
  | none => slot
  | some e => if e.state = .active then { slot with entry := some { e with interrupted := true } } else slot

/-! ### Loss of validity (R153, R154) -/

/-- Every list is emptied, and every channel's top is reported as NONE at once; a batch in flight ends (R110). -/
def State.emptyLists (s : State) : State :=
  allChannels.foldl State.reportTop
    (s.withArbiter { s.arbiter with lists := Vector.replicate 24 [], changed := Vector.replicate 24 false })

/-- The engine's work is abandoned, its flags are cleared and the last evaluated minute becomes unknown (R66). A wipe goes on
(R89). -/
def Engine.abandon (e : Engine) : Engine :=
  { e with work := .idle, resyncRequested := false, boundaryNoted := false, lastEvaluated := none }

/-- The clock becomes INVALID with the main supply present (R153). During a main reset the attention unit is held at its reset
values, and the restart raises INVALID (R182). -/
def State.loseValidity (s : State) : State :=
  let s1 := s.withClock { s.clock with valid := false }
  let s2 := (s1.withEngine s1.engine.abandon).withTable (s1.table.map Slot.disarm)
  let s3 := s2.emptyLists
  if s3.running then s3.raiseInvalid else s3

/-- The clock becomes INVALID on backup supply: the last evaluated minute becomes unknown and no other block is reached
(R154). -/
def State.loseValidityOnBackup (s : State) : State :=
  (s.withClock { s.clock with valid := false }).withEngine { s.engine with lastEvaluated := none }

/-- The timebase leaves RUNNING: a VALID clock becomes INVALID (R148). -/
def State.leaveRunning (s : State) : State :=
  if s.clock.valid then if s.supply = .normal then s.loseValidity else s.loseValidityOnBackup else s

/-! ### The crystal (R148) -/

/-- The timebase moves to a state. -/
def State.setTimebase (s : State) (t : TimebaseState) : State :=
  s.withTimebase { s.timebase with state := t }

/-- A first crystal edge in OFF or FAILED. -/
def State.crystalEdge (s : State) : State :=
  if s.supply = .cold then s
  else
    match s.timebase.state with
    | .off => s.setTimebase .starting
    | .failed => s.setTimebase .starting
    | .starting => s
    | .running => s

/-- Edges have continued for 2 s without a gap. -/
def State.crystalTrusted (s : State) : State :=
  if s.supply = .cold then s
  else
    match s.timebase.state with
    | .starting => s.setTimebase .running
    | .off => s
    | .running => s
    | .failed => s

/-- A gap of 4 ms with no crystal edge. -/
def State.crystalGap (s : State) : State :=
  if s.supply = .cold then s
  else
    match s.timebase.state with
    | .starting => s.setTimebase .failed
    | .running => (s.setTimebase .failed).leaveRunning
    | .off => s
    | .failed => s

/-! ### Main reset (R112, R133, R147, R176, R181, R202) -/

/-- Everything outside the backup domain takes its reset value: work in flight and a wipe are discarded, the lists are empty, the
channels drive their fallback actions, the inputs, the attention unit and the ports are as after a main reset. -/
def State.discardVolatile (s : State) : State :=
  { s with
    engine := { Engine.cold with lastEvaluated := s.engine.lastEvaluated }
    arbiter := Arbiter.reset
    channels := s.configs.map ChannelRun.afterReset
    inputs := s.pins.inputs.map InputRun.atLevel
    attention := Attention.reset
    mainPort := PortState.reset
    panelPort := PortState.reset
    panelBus := { PanelBus.reset with address := s.panelBus.address } }

/-- A main reset begins: held is cleared on every ACTIVE entry, and today's class is computed from the clock's date (R25, R28,
R181). -/
def State.beginReset (s : State) : State :=
  (({ s with supply := .normal, inReset := true }.discardVolatile).withTable (s.table.map Slot.clearHeld)).recomputeClass

/-! ### Restart (R182, R183) -/

/-- The restart with the clock INVALID (R182). -/
def State.restartInvalid (s : State) : State :=
  (s.withTable ((s.table.map Slot.freeSpent).map Slot.disarm)).raiseInvalid

/-- The restart with the clock VALID (R183). -/
def State.restartValid (s : State) : State :=
  let s' := s.dateChange
  (s'.withTable ((s'.table.map Slot.freeSpent).map Slot.markRestart)).requestResync

/-- The restart that follows a main reset. -/
def State.restart (s : State) : State :=
  if s.clock.valid then s.restartValid else s.restartInvalid

/-- The panel port's address: 0x2C with ADSEL low, 0x2D with it high (R195). -/
def panelAddress (adsel : Bool) : BitVec 7 :=
  if adsel then 0x2D else 0x2C

/-- The main reset ends: each stable level is taken from its pin without an event, ADSEL is read, today's class is computed
afresh from the date the clock now holds, and the restart follows (R28, R147, R181). -/
def State.endReset (s : State) (adsel : Bool) : State :=
  ({ s with
      inReset := false
      inputs := s.pins.inputs.map InputRun.atLevel
      panelBus := { s.panelBus with address := panelAddress adsel } }).recomputeClass.restart

/-- RSTN goes low; on NORMAL supply a main reset begins (R181). On backup supply RSTN is not watched (R179). -/
def State.rstnGoesLow (s : State) : State :=
  let s' := s.withPins { s.pins with rstnLow := true }
  if s.running then s'.beginReset else s'

/-- RSTN rises; with VMAIN present the main reset ends (R181). -/
def State.rstnRises (s : State) (adsel : Bool) : State :=
  let s' := s.withPins { s.pins with rstnLow := false }
  if decide (s.supply = .normal) && s.inReset then s'.endReset adsel else s'

/-! ### Supplies (R177 to R180) -/

/-- Every item of the backup domain takes its cold start value, and everything else is as after a main reset (R180). -/
def State.coldStart (s : State) (supply : Supply) : State :=
  ({ s with
      supply := supply
      inReset := false
      timebase := Timebase.cold
      clock := Clock.cold
      dates := DateSet.cold
      table := Vector.replicate 256 Slot.cold
      engine := Engine.cold
      configs := Vector.replicate 24 ChannelConfig.cold
      bindings := Vector.replicate 8 Binding.cold
      policy := 0 }).discardVolatile

/-- The main reset that VMAIN's appearance causes; it ends at once when RSTN is high (R181). -/
def State.powerUp (s : State) (adsel : Bool) : State :=
  if s.pins.rstnLow then s.beginReset else s.beginReset.endReset adsel

/-- VMAIN is lost: a switch-over to BACKUP with VBAK present, COLD without it (R177, R178). Today's class is not kept in the backup
domain and not computed on backup supply (R28); the field keeps its last value there, DESIGN CHOICE, and the main reset that always
comes before it is read computes it afresh (notes/assumptions/13.md). -/
def State.vmainLost (s : State) : State :=
  match s.supply with
  | .normal =>
    if s.pins.vbak then { s with supply := .backup, inReset := false }.discardVolatile else s.coldStart .cold
  | .backup => s
  | .cold => s

/-- VMAIN appears: a cold start from COLD, then a main reset and the restart (R177, R180, R181). -/
def State.vmainReturns (s : State) (adsel : Bool) : State :=
  match s.supply with
  | .normal => s
  | .backup => s.powerUp adsel
  | .cold => (s.coldStart .normal).powerUp adsel

/-- VBAK appears; in COLD it gives a cold start into BACKUP (R177, R180). -/
def State.vbakAppears (s : State) : State :=
  let s' := s.withPins { s.pins with vbak := true }
  if s.supply = .cold then s'.coldStart .backup else s'

/-- VBAK is lost; on backup supply everything held is lost, on main supply nothing changes (R177). -/
def State.vbakLost (s : State) : State :=
  let s' := s.withPins { s.pins with vbak := false }
  if s.supply = .backup then s'.coldStart .cold else s'

/-! ### Meanings -/

def execCrystalEdge (s : State) : Host.Outcome State Fault Refusal :=
  .next s.crystalEdge

def execCrystalTrusted (s : State) : Host.Outcome State Fault Refusal :=
  .next s.crystalTrusted

def execCrystalGap (s : State) : Host.Outcome State Fault Refusal :=
  .next s.crystalGap

def execRstnLow (s : State) : Host.Outcome State Fault Refusal :=
  .next s.rstnGoesLow

def execMainResetEnd (adsel : Bool) (s : State) : Host.Outcome State Fault Refusal :=
  .next (s.rstnRises adsel)

def execVmainLost (s : State) : Host.Outcome State Fault Refusal :=
  .next s.vmainLost

def execVmainReturns (adsel : Bool) (s : State) : Host.Outcome State Fault Refusal :=
  .next (s.vmainReturns adsel)

def execVbakAppears (s : State) : Host.Outcome State Fault Refusal :=
  .next s.vbakAppears

def execVbakLost (s : State) : Host.Outcome State Fault Refusal :=
  .next s.vbakLost

end Sys2Proof.Machine
end

