-- ==== Sys2Proof/Machine/Timers.lean ====
section
/-! DEFINITION. What the timebase drives: second boundaries, the ends of countdowns, the timers of the output stage, the sense
inputs, and the 10 ms tick that the part takes while no command waits (R48, R102, R118, R121, R123, R126, R127, R149,
R151). -/

namespace Sys2Proof.Machine

/-! ### Second boundaries (R48, R102, R151) -/

/-- An ACTIVE entry with interrupted set is restart-pending (R17). -/
def Entry.restartPending (e : Entry) : Bool :=
  decide (e.state = .active) && e.interrupted

/-- An ACTIVE EVENT that is not restart-pending counts (R48). -/
def Entry.counts (e : Entry) : Bool :=
  decide (e.state = .active) && e.defn.kind.isEvent && !e.restartPending

/-- One second of an EVENT's countdown; a count at 0 waits for its end (R48). -/
def Slot.countSecond (slot : Slot) : Slot :=
  match slot.entry with
  | none => slot
  | some e => if e.counts then { slot with entry := some { e with remSeconds := e.remSeconds - 1 } } else slot

/-- One second of a TIMED claim's count; a count at 0 waits for its expiry (R102). -/
def Claim.countSecond (c : Claim) : Claim :=
  match c.lifetime with
  | .timed minutes remaining => { c with lifetime := .timed minutes (remaining - 1) }
  | .entry => c
  | .momentary => c
  | .untilEdge => c
  | .latch => c

/-- Every EVENT and every TIMED claim counts one second. -/
def State.countSeconds (s : State) : State :=
  (s.withTable (s.table.map Slot.countSecond)).withArbiter
    { s.arbiter with lists := s.arbiter.lists.map fun l => l.map Claim.countSecond }

/-- A VALID clock advances by one second; while the part runs a carry out of the seconds is a minute boundary, and every
boundary may raise TICK (R151, R152, R162). Outside that the clock counts and hands nothing on (R179, R181). -/
def State.clockSecond (s : State) : State :=
  let s' := s.withClock s.clock.advanceSecond
  if !s.running then s'
  else if s.clock.second < 59 then s'.tickAt false
  else s'.minuteBoundary s.clock.atLastMinute

/-- The sub-second divider has completed a second, in RUNNING alone (R149). A divider that SET_CLOCK or SNAP_MINUTE has restarted
has not: the boundary that would have come does not (R160, R161). -/
def State.secondDue (s : State) : Bool :=
  decide (s.supply ≠ .cold) && decide (s.timebase.state = .running) && decide (100 ≤ s.timebase.subSecond)

/-- A second boundary, which the timebase produces when its divider has completed a second (R149). On backup supply and during a
main reset the clock alone counts it (R179, R181). -/
def State.secondBoundary (s : State) : State :=
  if s.secondDue then
    let s1 := s.withTimebase { s.timebase with subSecond := 0 }
    let s2 := if s1.running then s1.countSeconds else s1
    if s2.clock.valid then s2.clockSecond else s2
  else s

def execSecondBoundary (s : State) : Host.Outcome State Fault Refusal :=
  .next s.secondBoundary

/-! ### Ends of countdowns (R48, R102) -/

/-- The EVENT in slot `i` has counted down to 0. -/
def State.eventDue (s : State) (i : SlotNo) : Bool :=
  match (s.slot i).entry with
  | none => false
  | some e => e.counts && decide (e.remSeconds = 0)

/-- The occurrence of an EVENT whose remaining seconds have reached 0 ends (R48). -/
def State.eventEnds (s : State) (i : SlotNo) : State :=
  if s.running && s.eventDue i then s.endOccurrence i else s

def execEventCountdownEnd (i : SlotNo) (s : State) : Host.Outcome State Fault Refusal :=
  .next (s.eventEnds i)

/-- A TIMED lifetime has counted down to 0. -/
def Lifetime.isDue : Lifetime → Bool
  | .timed _ remaining => decide (remaining = 0)
  | .entry => false
  | .momentary => false
  | .untilEdge => false
  | .latch => false

/-- The TIMED claim of `src` on channel `c` has counted down to 0. -/
def State.timedDue (s : State) (c : Chan) (src : Source) : Bool :=
  match claimOf (s.list c) src with
  | none => false
  | some claim => claim.lifetime.isDue

/-- A TIMED claim whose remaining seconds have reached 0 is removed, without notice (R102). -/
def State.timedExpires (s : State) (c : Chan) (src : Source) : State :=
  if s.running && s.timedDue c src then s.remove c src else s

def execTimedExpiry (c : Chan) (src : Source) (s : State) : Host.Outcome State Fault Refusal :=
  .next (s.timedExpires c src)

/-! ### Output stage timers and sense inputs -/

/-- The guard timer runs and has counted its last tick (R121). -/
def ChannelRun.guardDue (run : ChannelRun) : Bool :=
  decide (run.state = .guarding ∧ run.guard = 0)

/-- The guard timer of a GUARDING channel expires at its last tick (R118, R121). -/
def State.guardExpiry (s : State) (c : Chan) : State :=
  if s.running && (s.channel c).guardDue then
    s.withChannel c ((s.channel c).guardExpires (s.config c))
  else s

def execGuardExpiry (c : Chan) (s : State) : Host.Outcome State Fault Refusal :=
  .next (s.guardExpiry c)

/-- The sense input shows the state expected of the commanded action: on for ON, off for OFF (R125). -/
def State.senseAgrees (s : State) (c : Chan) : Bool :=
  decide (loadShown (s.config c) s.pins.senses[c] = decide ((s.channel c).commanded = .on))

/-- The channel becomes FAULTED and FAULT is raised (R128). -/
def State.enterFaulted (s : State) (c : Chan) : State :=
  (s.withChannel c (ChannelRun.outOfService (s.config c) .faulted .fault)).raiseChannel c .fault

/-- The proof timer runs, in SETTLING or DISAGREE, and has counted its last tick (R121, R126, R127). -/
def ChannelRun.proofDue (run : ChannelRun) : Bool :=
  decide ((run.proof = .settling ∨ run.proof = .disagree) ∧ run.proofTicks = 0)

/-- The proof timer expires at its last tick: AGREE when the sense shows the expected state, otherwise a fault (R121, R126,
R127). A monitor that an event taken first has restarted has its full time before it, and no expiry happens (R129). -/
def State.proofExpiry (s : State) (c : Chan) : State :=
  if s.running && (s.channel c).proofDue then
    if s.senseAgrees c then s.withChannel c { s.channel c with proof := .agree, proofTicks := 0 } else s.enterFaulted c
  else s

def execProofTimerExpiry (c : Chan) (s : State) : Host.Outcome State Fault Refusal :=
  .next (s.proofExpiry c)

/-- What the monitor makes of the sense input's present level: AGREE is left when the sense leaves the expected state, with the
full proof time, and DISAGREE when it returns (R127). -/
def State.watchSense (s : State) (c : Chan) : State :=
  match (s.channel c).proof with
  | .agree =>
    if s.senseAgrees c then s
    else s.withChannel c { s.channel c with proof := .disagree, proofTicks := (s.config c).proofTime.toNat }
  | .disagree => if s.senseAgrees c then s.withChannel c { s.channel c with proof := .agree, proofTicks := 0 } else s
  | .idle => s
  | .settling => s
  | .fault => s

/-- Pin SN `c` takes a level; it is watched while the part runs (R126, R127, R133). -/
def State.sensePin (s : State) (c : Chan) (high : Bool) : State :=
  let s' := s.withPins { s.pins with senses := s.pins.senses.set c high }
  if s.running then s'.watchSense c else s'

def execSenseChange (c : Chan) (high : Bool) (s : State) : Host.Outcome State Fault Refusal :=
  .next (s.sensePin c high)

/-- A pulse phase ends (R123): an on phase is followed by an off phase; the end of an off phase completes a cycle, which a
finite burst counts, and after which the waveform rests when the count has reached the burst. -/
def ChannelRun.phaseEnds (run : ChannelRun) : ChannelRun :=
  match run.commanded with
  | .off => run
  | .on => run
  | .pulse shape =>
    match run.wave with
    | .onPhase => { run with wave := .offPhase, phaseTicks := shape.offWidth.toNat }
    | .offPhase =>
      if shape.burst = 0 then { run with wave := .onPhase, phaseTicks := shape.onWidth.toNat }
      else if run.cycles + 1 = shape.burst then { run with wave := .resting, phaseTicks := 0, cycles := run.cycles + 1 }
      else { run with wave := .onPhase, phaseTicks := shape.onWidth.toNat, cycles := run.cycles + 1 }
    | .steady => run
    | .resting => run

/-- An on or off phase has counted its last tick (R121). -/
def ChannelRun.phaseDue (run : ChannelRun) : Bool :=
  decide ((run.wave = .onPhase ∨ run.wave = .offPhase) ∧ run.phaseTicks = 0)

/-- The pulse phase of channel `c` ends at its last tick (R121, R123). -/
def State.pulsePhaseEnds (s : State) (c : Chan) : State :=
  if s.running && (s.channel c).phaseDue then s.withChannel c (s.channel c).phaseEnds else s

def execPulsePhaseEnd (c : Chan) (s : State) : Host.Outcome State Fault Refusal :=
  .next (s.pulsePhaseEnds c)

/-! ### The 10 ms tick (R121, R137, R149)

No row of the table is a tick: it is what a step does when no command waits and no timer is due (notes/assumptions/5.md). -/

/-- A 10 ms tick of a pulse phase, and a 100 ms tick of the guard and proof timers when `hundred` is set. A timer of n ticks has
none left after the n-th, and waits for its expiry. -/
def ChannelRun.tick (run : ChannelRun) (hundred : Bool) : ChannelRun :=
  { run with
    phaseTicks := run.phaseTicks - 1
    guard := if hundred then run.guard - 1 else run.guard
    proofTicks := if hundred then run.proofTicks - 1 else run.proofTicks }

/-- A 10 ms tick of a debounce timer that runs. -/
def InputRun.tick (r : InputRun) : InputRun :=
  { r with debounceLeft := r.debounceLeft.map fun n => n - 1 }

/-- The timebase after a 10 ms tick: every tenth is a 100 ms tick, and in RUNNING the divider has gone on by 10 ms, until the
second is complete and waits for its boundary (R149). -/
def Timebase.tick (t : Timebase) : Timebase :=
  { t with
    tickPhase := if t.tickPhase < 9 then t.tickPhase + 1 else 0
    subSecond := if t.state = .running ∧ t.subSecond < 100 then t.subSecond + 1 else t.subSecond }

/-- A 10 ms tick of the tick chain, which feeds the timers while the part runs (R149, R181). -/
def State.tick (s : State) : State :=
  if s.supply = .cold then s
  else
    let s' := s.withTimebase s.timebase.tick
    if s.running then
      { s' with
        channels := s.channels.map fun run => run.tick (decide (9 ≤ s.timebase.tickPhase))
        inputs := s.inputs.map InputRun.tick }
    else s'

end Sys2Proof.Machine
end

