-- ==== Sys2Proof/Machine/Dispatch.lean ====
section
/-! DEFINITION. One arm per row of spec/opcode_table.json: each row's meaning, by its full name. -/

namespace Sys2Proof.Machine

def exec (i : Instr) (s : State) : Host.Outcome State Fault Refusal :=
  match i with
  | .submit p => Sys2Proof.Machine.execSubmit p s
  | .requestFrame p bytes => Sys2Proof.Machine.execRequestFrame p bytes s
  | .submitTruncated p => Sys2Proof.Machine.execSubmitTruncated p s
  | .fetch p n => Sys2Proof.Machine.execFetch p n s
  | .poll p n => Sys2Proof.Machine.execPoll p n s
  | .badKind p kind n => Sys2Proof.Machine.execBadKind p kind n s
  | .panelRead n => Sys2Proof.Machine.execPanelRead n s
  | .readClock p => Sys2Proof.Machine.execReadClock p s
  | .setClock p => Sys2Proof.Machine.execSetClock p s
  | .snapMinute p => Sys2Proof.Machine.execSnapMinute p s
  | .addDate p => Sys2Proof.Machine.execAddDate p s
  | .removeDate p => Sys2Proof.Machine.execRemoveDate p s
  | .listDates p => Sys2Proof.Machine.execListDates p s
  | .addEntry p => Sys2Proof.Machine.execAddEntry p s
  | .readEntry p => Sys2Proof.Machine.execReadEntry p s
  | .modifyEntry p => Sys2Proof.Machine.execModifyEntry p s
  | .suspendEntry p => Sys2Proof.Machine.execSuspendEntry p s
  | .resumeEntry p => Sys2Proof.Machine.execResumeEntry p s
  | .deleteEntry p => Sys2Proof.Machine.execDeleteEntry p s
  | .findEntries p => Sys2Proof.Machine.execFindEntries p s
  | .wipeTable p => Sys2Proof.Machine.execWipeTable p s
  | .wipeSlot => Sys2Proof.Machine.execWipeSlot s
  | .wipeComplete takes => Sys2Proof.Machine.execWipeComplete takes s
  | .configureChannel p => Sys2Proof.Machine.execConfigureChannel p s
  | .readChannel p => Sys2Proof.Machine.execReadChannel p s
  | .forceChannel p => Sys2Proof.Machine.execForceChannel p s
  | .releaseChannel p => Sys2Proof.Machine.execReleaseChannel p s
  | .clearFault p => Sys2Proof.Machine.execClearFault p s
  | .bindInput p => Sys2Proof.Machine.execBindInput p s
  | .readInput p => Sys2Proof.Machine.execReadInput p s
  | .nextCause p => Sys2Proof.Machine.execNextCause p s
  | .nextEntryNotice p => Sys2Proof.Machine.execNextEntryNotice p s
  | .configureAttention p => Sys2Proof.Machine.execConfigureAttention p s
  | .takeChannelNotice p => Sys2Proof.Machine.execTakeChannelNotice p s
  | .takeInputEvents p => Sys2Proof.Machine.execTakeInputEvents p s
  | .ackClock p => Sys2Proof.Machine.execAckClock p s
  | .setPanelPolicy p => Sys2Proof.Machine.execSetPanelPolicy p s
  | .secondBoundary => Sys2Proof.Machine.execSecondBoundary s
  | .sweepVisit => Sys2Proof.Machine.execSweepVisit s
  | .sweepComplete => Sys2Proof.Machine.execSweepComplete s
  | .resyncVisit => Sys2Proof.Machine.execResyncVisit s
  | .resyncComplete takes => Sys2Proof.Machine.execResyncComplete takes s
  | .eventCountdownEnd slot => Sys2Proof.Machine.execEventCountdownEnd slot s
  | .timedExpiry c source => Sys2Proof.Machine.execTimedExpiry c source s
  | .guardExpiry c => Sys2Proof.Machine.execGuardExpiry c s
  | .proofTimerExpiry c => Sys2Proof.Machine.execProofTimerExpiry c s
  | .senseChange c high => Sys2Proof.Machine.execSenseChange c high s
  | .pulsePhaseEnd c => Sys2Proof.Machine.execPulsePhaseEnd c s
  | .inputPinChange k high => Sys2Proof.Machine.execInputPinChange k high s
  | .debounceExpiry k => Sys2Proof.Machine.execDebounceExpiry k s
  | .irqnPulseEnd => Sys2Proof.Machine.execIrqnPulseEnd s
  | .crystalEdge => Sys2Proof.Machine.execCrystalEdge s
  | .crystalTrusted => Sys2Proof.Machine.execCrystalTrusted s
  | .crystalGap => Sys2Proof.Machine.execCrystalGap s
  | .rstnLow => Sys2Proof.Machine.execRstnLow s
  | .mainResetEnd adsel => Sys2Proof.Machine.execMainResetEnd adsel s
  | .vmainLost => Sys2Proof.Machine.execVmainLost s
  | .vmainReturns adsel => Sys2Proof.Machine.execVmainReturns adsel s
  | .vbakAppears => Sys2Proof.Machine.execVbakAppears s
  | .vbakLost => Sys2Proof.Machine.execVbakLost s
  | .csnRises => Sys2Proof.Machine.execCsnRises s
  | .startCondition => Sys2Proof.Machine.execStartCondition s

end Sys2Proof.Machine
end

