-- ==== Sys2Proof/Machine/Idle.lean ====
section
/-! DEFINITION. What a step does when no command waits: the timers that have counted their last tick or second are due, and so is
the boundary of a second that the divider has completed, and their rows join the queue; when none is due a 10 ms tick passes (R48,
R102, R121, R137, R149; notes/assumptions/5.md). -/

namespace Sys2Proof.Machine

/-- The expiry rows of channel `c` that are due: its guard, its proof timer, its pulse phase, and its TIMED claims. -/
def State.channelDue (s : State) (c : Chan) : List Instr :=
  (if (s.channel c).guardDue then [.guardExpiry c] else []) ++
    (if (s.channel c).proofDue then [.proofTimerExpiry c] else []) ++
    (if (s.channel c).phaseDue then [.pulsePhaseEnd c] else []) ++
    ((s.list c).filter fun claim => claim.lifetime.isDue).map fun claim => .timedExpiry c claim.source

/-- The expiry rows that are due while the part runs: channel by channel, then the debounce timers, then the EVENTs. -/
def State.dueExpiries (s : State) : List Instr :=
  if s.running then
    allChannels.flatMap s.channelDue ++ ((List.finRange 8).filter s.debounceDue).map Instr.debounceExpiry ++
      ((List.finRange 256).filter s.eventDue).map Instr.eventCountdownEnd
  else []

/-- The rows that are due: the expiries while the part runs, and the second boundary wherever the divider runs (R149, R163). Where
several are due together either may be first (R49, R129), and a sender may queue them in any order before. -/
def State.dueRows (s : State) : List Instr :=
  s.dueExpiries ++ if s.secondDue then [.secondBoundary] else []

/-- The step of a part for which no command waits. The due rows are taken before another tick passes, so that a timer of n ticks
expires at its n-th tick (R121, R137), and a second boundary comes a whole second after the one before or after a restart of the
divider (R149). -/
def State.idleStep (s : State) : State :=
  match s.dueRows with
  | [] => s.tick
  | c :: rest => { s with pending := c :: rest }

end Sys2Proof.Machine
end

