-- ==== Sys2Proof/Safety.lean ====
section
/-! DEFINITION. What a sound state of the part is: the relations between fields that the manual says always hold, each a decidable
property of one state. Claims about runs are stated in these terms. No command of the part is unsafe in the sense of stopping
it (`Fault` has no constructor); a safe run is one whose every state is sound. -/

namespace Sys2Proof.Machine

/-! ### Claim lists (R92, R94) -/

/-- A claim list as R92 and R94 describe it: at most 8 claims, no two with the same source, in order of priority and, among
equal priorities, the later placed first. -/
def ListSound (l : List Claim) : Prop :=
  l.length ≤ Config.claimCapacity ∧ (l.map Claim.source).Nodup ∧ (l.map Claim.order).Nodup ∧
    l.Pairwise fun a b => a.standsBefore b = true

/-- Every claim list is sound. -/
def State.ListsSound (s : State) : Prop :=
  ∀ c : Chan, ListSound (s.list c)

/-! ### Exception dates (R26) -/

/-- The records stand in ascending order of date, are at most 32, no two of one date, each of a possible date. -/
def State.DatesSound (s : State) : Prop :=
  s.dates.records.length ≤ Config.dateCapacity ∧
    (s.dates.records.Pairwise fun a b => a.date.before b.date = true) ∧
    ∀ r ∈ s.dates.records, r.date.possible = true

/-! ### The clock (R150) -/

/-- A VALID clock has a RUNNING timebase behind it. -/
def State.ClockSound (s : State) : Prop :=
  s.clock.valid = true → s.timebase.state = .running

/-! ### Output stage (R115, R117, R119, R123, R125) -/

/-- The commanded action is a steady level. -/
def Action.isSteady : Action → Bool
  | .off => true
  | .on => true
  | .pulse _ => false

/-- One channel: DISABLED exactly when it is not enabled; out of service it drives its fallback action with every timer idle;
the guard timer runs only in GUARDING, and only there is a pending action held; the waveform is STEADY exactly for a steady
action, and a phase has ticks only while it lasts; the proof monitor is at work only where proof applies, and its timer runs only
in SETTLING and DISAGREE. -/
def ChannelSound (cfg : ChannelConfig) (run : ChannelRun) : Prop :=
  (run.state = .disabled ↔ cfg.enabled = false) ∧
    (run.state = .disabled → run.commanded = cfg.fallback ∧ run.proof = .idle) ∧
    (run.state = .faulted → run.commanded = cfg.fallback ∧ run.proof = .fault) ∧
    (run.state ≠ .guarding → run.guard = 0 ∧ run.pending = none) ∧
    (run.wave = .steady ↔ run.commanded.isSteady = true) ∧
    (run.wave ≠ .onPhase → run.wave ≠ .offPhase → run.phaseTicks = 0) ∧
    (run.proof ≠ .settling → run.proof ≠ .disagree → run.proofTicks = 0) ∧
    (run.proof = .settling ∨ run.proof = .agree ∨ run.proof = .disagree →
      proofApplies cfg run.state run.commanded = true)

/-- Every channel is sound. -/
def State.ChannelsSound (s : State) : Prop :=
  ∀ c : Chan, ChannelSound (s.config c) (s.channel c)

/-! ### Entries (R2, R5 to R8, R11, R18, R19) -/

/-- The ranges of the definition fields (R2, R12). -/
def Definition.sound (d : Definition) : Prop :=
  d.priority ≤ 7 ∧ d.daySet ≠ 0 ∧ d.start.possible = true ∧
    (match d.kind with
      | .span stop => stop.possible = true ∧ stop ≠ d.start
      | .event duration => 1 ≤ duration ∧ duration ≤ 3600) ∧
    (match d.action with
      | .off => True
      | .on => True
      | .pulse shape => shape.onWidth ≠ 0 ∧ shape.offWidth ≠ 0) ∧
    (∀ f, d.fromDate = some f → f.possible = true) ∧ (∀ u, d.untilDate = some u → u.possible = true) ∧
    datesInOrder d.fromDate d.untilDate = true ∧ d.budget ≠ some 0 ∧ d.label.length ≤ Config.maxLabel ∧
    d.label.all labelChar = true

/-- One entry: its definition is in its ranges, its remaining budget is present exactly when a budget was written and never
above it, and outside ACTIVE its occurrence fields are clear. -/
def Entry.sound (e : Entry) : Prop :=
  e.defn.sound ∧ e.remBudget.isSome = e.defn.budget.isSome ∧
    (e.remBudget.getD 0).toNat ≤ (e.defn.budget.getD 0).toNat ∧ e.remSeconds ≤ 3600 ∧
    (e.state ≠ .active → e.held = false ∧ e.final = false ∧ e.endDue = none ∧ e.remSeconds = 0) ∧
    (e.state = .active → e.stamp.isSome = true)

/-- Every entry is sound. -/
def State.EntriesSound (s : State) : Prop :=
  ∀ (i : SlotNo) (e : Entry), (s.slot i).entry = some e → e.sound

/-! ### Notices (R165, R166) -/

/-- Only a slot that holds an entry is a member of the entry notice set; while the part does not run both sets are empty. -/
def State.NoticesSound (s : State) : Prop :=
  (∀ i : SlotNo, s.attention.entryNotices[i] ≠ 0 → (s.slot i).entry.isSome = true) ∧
    (s.running = false →
      s.attention.entryNotices = Vector.replicate 256 0 ∧ s.attention.channelNotices = Vector.replicate 24 0)

/-! ### Outside NORMAL supply and during main reset (R67, R112, R133, R176, R181, R202) -/

/-- While the part does not run, everything outside the backup domain but the inputs stands at its reset value. -/
def State.RestSound (s : State) : Prop :=
  s.running = false →
    s.engine = { Engine.cold with lastEvaluated := s.engine.lastEvaluated } ∧ s.arbiter = Arbiter.reset ∧
      s.channels = s.configs.map ChannelRun.afterReset ∧ s.attention = Attention.reset ∧
      s.mainPort = PortState.reset ∧ s.panelPort = PortState.reset ∧ s.panelBus.selection = none

/-! ### An INVALID clock (R153) -/

/-- No entry is ACTIVE. -/
def State.noneActive (s : State) : Prop :=
  ∀ (i : SlotNo) (e : Entry), (s.slot i).entry = some e → e.state ≠ .active

/-- While the part runs and the clock is INVALID, every claim list is empty, no entry is ACTIVE, and the engine has no work and
waits for none. -/
def State.QuietSound (s : State) : Prop :=
  s.running = true → s.clock.valid = false →
    (∀ c : Chan, s.list c = []) ∧ s.noneActive ∧ s.engine.work = .idle ∧ s.engine.resyncRequested = false ∧
      s.engine.boundaryNoted = false

/-! ### Claims and their sources (R15, R93, R100) -/

/-- The lifetimes a source's claims may carry (R93). -/
def Claim.lifetimeFits (c : Claim) : Bool :=
  match c.source, c.lifetime with
  | .entry _, .entry => true
  | .entry _, _ => false
  | .input _, .entry => false
  | .input _, _ => true
  | .port _, .entry => false
  | .port _, .momentary => false
  | .port _, _ => true

/-- A claim of an entry stands only while the entry is ACTIVE with held set, in the list of the entry's own channel, with the
entry's priority and action. -/
def State.claimBacked (s : State) (c : Chan) (claim : Claim) : Prop :=
  ∀ i : SlotNo, claim.source = .entry i →
    ∃ e, (s.slot i).entry = some e ∧ e.state = .active ∧ e.held = true ∧ e.defn.channel = c ∧
      claim.priority = e.defn.priority ∧ claim.action = e.defn.action

/-- Held tells that the claim of an ACTIVE entry stands, while the part runs; in a main reset no ACTIVE entry is held. -/
def State.heldMeansStanding (s : State) : Prop :=
  ∀ (i : SlotNo) (e : Entry), (s.slot i).entry = some e → e.state = .active → e.held = true →
    (s.running = true → (claimOf (s.list e.defn.channel) (.entry i)).isSome = true) ∧
      (s.supply = .normal → s.inReset = false)

/-- The claims and the entries agree (R15, R100), every claim's lifetime is one its source may carry (R93), and no claim stands
while the part does not run (R112). -/
def State.ClaimsSound (s : State) : Prop :=
  (∀ c : Chan, ∀ claim ∈ s.list c, s.claimBacked c claim ∧ claim.lifetimeFits = true) ∧ s.heldMeansStanding ∧
    (s.running = false → ∀ c : Chan, s.list c = [])

/-! ### A wipe in progress (R65, R88) -/

/-- While a WIPE_TABLE is in progress the slots below its cursor are EMPTY, since nothing fills a slot before it completes. -/
def State.WipeSound (s : State) : Prop :=
  ∀ w, s.engine.wipe = some w → ∀ i : SlotNo, i.val < w.cursor → (s.slot i).entry = none

/-! ### The whole -/

/-- A sound state. -/
def State.Sound (s : State) : Prop :=
  s.ListsSound ∧ s.DatesSound ∧ s.ClockSound ∧ s.ChannelsSound ∧ s.EntriesSound ∧ s.NoticesSound ∧ s.RestSound ∧
    s.QuietSound ∧ s.ClaimsSound ∧ s.WipeSound

/-! ### The effects that claims name (R44, R45, R68, R109, R116, R117) -/

/-- A channel of settings `cfg` in service whose commanded action has just become `a`, with the pending action `pending`: the
waveform at its beginning, the proof monitor restarted, the guard timer started (R117, R123, R125). -/
def ChannelRun.fresh (cfg : ChannelConfig) (pending : Option Action) (a : Action) : ChannelRun :=
  { state := if cfg.guardTime = 0 then .normal else .guarding
    commanded := a
    pending := pending
    guard := cfg.guardTime.toNat * 10
    wave := if a.isSteady then .steady else .onPhase
    phaseTicks :=
      match a with
      | .off => 0
      | .on => 0
      | .pulse shape => shape.onWidth.toNat
    cycles := 0
    proof := if proofApplies cfg .normal a then .settling else .idle
    proofTicks := if proofApplies cfg .normal a then cfg.proofTime.toNat else 0 }

/-- A channel out of service: its fallback action as a steady level and every timer idle (R119, R128). -/
def ChannelRun.retired (cfg : ChannelConfig) (state : ChannelState) (proof : Proof) : ChannelRun :=
  { state := state, commanded := if cfg.fallbackOn then .on else .off, pending := none, guard := 0, wave := .steady,
    phaseTicks := 0, cycles := 0, proof := proof, proofTicks := 0 }

/-- What the output stage makes of a reported top whose action is `a` (R116). -/
def ChannelRun.told (run : ChannelRun) (cfg : ChannelConfig) (a : Action) : ChannelRun :=
  match run.state with
  | .disabled => run
  | .faulted => run
  | .guarding => { run with pending := some a }
  | .normal => if a = run.commanded then run else ChannelRun.fresh cfg run.pending a

/-- What follows a change of the list of channel `c` from `s` to `t`: while a sweep or a resync is in flight the change is
recorded and nothing is reported; otherwise a top that differs from the one last reported is reported at once and the output
stage takes it (R68, R109, R115, R116). -/
def State.followsList (s t : State) (c : Chan) : Prop :=
  if s.engine.work.inFlight then
    t.lastTop c = s.lastTop c ∧ t.channel c = s.channel c ∧
      t.arbiter.changed[c] = (s.arbiter.changed[c] || decide (t.list c ≠ s.list c))
  else
    t.lastTop c = topOf (t.list c) ∧ t.arbiter.changed[c] = s.arbiter.changed[c] ∧
      t.channel c =
        if topOf (t.list c) = s.lastTop c then s.channel c
        else (s.channel c).told (s.config c) (targetOf (s.config c) (topOf (t.list c)))

/-- From `s` to `t` no channel but `c` has changed, and the settings of none. -/
def State.onlyChannel (s t : State) (c : Chan) : Prop :=
  t.configs = s.configs ∧
    ∀ d : Chan, d ≠ c → t.list d = s.list d ∧ t.lastTop d = s.lastTop d ∧ t.channel d = s.channel d ∧
      t.arbiter.changed[d] = s.arbiter.changed[d]

/-- From `s` to `t` no slot but `i` has changed, and no slot's notices but those of `i`. -/
def State.onlySlot (s t : State) (i : SlotNo) : Prop :=
  ∀ j : SlotNo, j ≠ i → t.slot j = s.slot j ∧ t.attention.entryNotices[j] = s.attention.entryNotices[j]

/-- From `s` to `t` nothing has changed but the table, the entry notices (with IRQN following them), the lists with their
reports, the channels and the engine: the reach of one evaluation of one entry. -/
def State.evaluationOnly (s t : State) : Prop :=
  t = { s with
    table := t.table, engine := t.engine, arbiter := t.arbiter, channels := t.channels
    attention := { s.attention with entryNotices := t.attention.entryNotices, pulse := t.attention.pulse } }

/-- The entry `e` in the middle of the occurrence that starts on `d`, with held as a claim that stands gives it: ACTIVE, one unit of budget spent, the
stamp set, end due for a SPAN and remaining seconds for an EVENT (R19, R44). -/
def Entry.started (e : Entry) (d : Date) : Entry :=
  { e with
    state := .active
    remBudget := e.remBudget.map fun b => b - 1
    held := true
    stamp := some { date := d, time := e.defn.start }
    interrupted := false
    final := false
    endDue :=
      match e.defn.kind with
      | .span stop => some { date := if stop.ofDay < e.defn.start.ofDay then d.next else d, time := stop }
      | .event _ => none
    remSeconds :=
      match e.defn.kind with
      | .span _ => 0
      | .event duration => duration
    admissionDue := false
    rejoin := false }

/-! ### Placements with their displacements (R96, R97, R101) -/

/-- The placement of `claim` on channel `c` pushes out the claim of `src`. -/
def State.pushesOut (s : State) (c : Chan) (claim : Claim) (src : Source) : Prop :=
  ∃ d, (placeInList (s.list c) claim).displaced = some d ∧ d.source = src

/-- The entry of slot `i` has lost its claim to a placement, or its placement was not kept: held is cleared, the generation
stays, and DISPLACED is raised if notify names it (R97, R101). -/
def State.entryDisplaced (s t : State) (i : SlotNo) : Prop :=
  ((s.slot i).entry = none → t.slot i = s.slot i ∧ t.attention.entryNotices[i] = s.attention.entryNotices[i]) ∧
    ∀ e, (s.slot i).entry = some e →
      t.slot i = { gen := (s.slot i).gen, entry := some { e with held := false } } ∧
        t.attention.entryNotices[i] = s.attention.entryNotices[i] ||| (e.defn.notify &&& EntryCause.displaced.bit)

/-- From `s` to `t` nothing has changed but the table, both sets of notices (with IRQN following them), the lists with their reports,
the channels and the engine: the reach of one evaluation of one entry that places a claim. -/
def State.placementOnly (s t : State) : Prop :=
  t = { s with
    table := t.table, engine := t.engine, arbiter := t.arbiter, channels := t.channels
    attention :=
      { s.attention with
        entryNotices := t.attention.entryNotices, channelNotices := t.attention.channelNotices
        pulse := t.attention.pulse } }

/-- A step has left slot `i` with the generation `gen` and the entry `e`, has added `raised` to its notices, and has handed its claim
to the arbiter. Held tells whether the list keeps the claim. A list that does not is as it was, and the entry raises DISPLACED if
notify names it. One that does takes the claim as R96 says, and a claim that it pushes out has its displacement: another entry
loses held and raises DISPLACED if notify names it, and an input or port raises DISPLACED for the channel. Nothing else changes
(R44, R52, R56, R97, R101). -/
def State.placesEntry (s t : State) (i : SlotNo) (gen : Byte) (e : Entry) (raised : BitVec 5) : Prop :=
  let c := e.defn.channel
  let claim := entryClaim i e.defn
  let placed := placeInList (s.list c) claim
  t.slot i = { gen := gen, entry := some { e with held := placed.kept } } ∧
    t.attention.entryNotices[i] =
      s.attention.entryNotices[i] ||| raised |||
        (if placed.kept then 0 else e.defn.notify &&& EntryCause.displaced.bit) ∧
    (placed.kept = true → t.list c = placed.list ∧ s.followsList t c) ∧
    (placed.kept = false →
      t.list c = s.list c ∧ t.lastTop c = s.lastTop c ∧ t.channel c = s.channel c ∧
        t.arbiter.changed[c] = s.arbiter.changed[c]) ∧
    (∀ j : SlotNo, j ≠ i →
      (s.pushesOut c claim (.entry j) → s.entryDisplaced t j) ∧
        (¬s.pushesOut c claim (.entry j) →
          t.slot j = s.slot j ∧ t.attention.entryNotices[j] = s.attention.entryNotices[j])) ∧
    ((∃ src, isEntrySource src = false ∧ s.pushesOut c claim src) →
      t.attention.channelNotices =
        s.attention.channelNotices.set c (s.attention.channelNotices[c] ||| ChannelCause.displaced.bit)) ∧
    ((∀ src, isEntrySource src = false → ¬s.pushesOut c claim src) →
      t.attention.channelNotices = s.attention.channelNotices) ∧
    s.onlyChannel t c ∧ s.placementOnly t

/-- The activation of the entry `e` of slot `i` for the occurrence that starts on `d`: one step of the table, STARTED if notify names
it, the claim handed to the arbiter, and nothing else (R44). -/
def State.activates (s t : State) (i : SlotNo) (e : Entry) (d : Date) : Prop :=
  s.placesEntry t i ((s.slot i).gen + 1) (e.started d) (e.defn.notify &&& EntryCause.started.bit)

/-- The claim of the entry `e` of slot `i` has left its list if it stood, and the list's UNTIL_EDGE claims with it; with held
false the list is as it was (R45, R98, R103). -/
def State.withdraws (s t : State) (i : SlotNo) (e : Entry) : Prop :=
  if e.held then
    t.list e.defn.channel = removeFromList (s.list e.defn.channel) (.entry i) ∧ s.followsList t e.defn.channel
  else
    t.list e.defn.channel = s.list e.defn.channel ∧ t.lastTop e.defn.channel = s.lastTop e.defn.channel ∧
      t.channel e.defn.channel = s.channel e.defn.channel ∧
      t.arbiter.changed[e.defn.channel] = s.arbiter.changed[e.defn.channel]

/-- The entry `e` after its occurrence, in the state given: the fields of the occurrence are cleared (R45). -/
def Entry.ended (e : Entry) (state : EntryState) : Entry :=
  { e with state := state, held := false, interrupted := false, final := false, endDue := none, remSeconds := 0 }

/-- A slot is freed when its entry enters SPENT: autofree is set and notify lacks SPENT (R46). -/
def Definition.freedWhenSpent (d : Definition) : Prop :=
  d.autofree = true ∧ d.notify &&& EntryCause.spent.bit = 0

/-- The end of the occurrence of the ACTIVE entry `e` of slot `i`: its claim leaves the list if it stood, ENDED is raised if notify
names it, and the entry is ARMED, or SPENT with that cause when no budget is left or final is set; a SPENT entry that autofree
frees at once leaves an EMPTY slot without notices, in a second step (R45, R46). -/
def State.endsOccurrence (s t : State) (i : SlotNo) (e : Entry) : Prop :=
  (if e.remBudget = some 0 ∨ e.final then
      (e.defn.freedWhenSpent →
        t.slot i = { gen := (s.slot i).gen + 2, entry := none } ∧ t.attention.entryNotices[i] = 0) ∧
      (¬e.defn.freedWhenSpent →
        t.slot i = { gen := (s.slot i).gen + 1, entry := some (e.ended .spent) } ∧
          t.attention.entryNotices[i] =
            s.attention.entryNotices[i] ||| (e.defn.notify &&& EntryCause.ended.bit) |||
              (e.defn.notify &&& EntryCause.spent.bit))
    else
      t.slot i = { gen := (s.slot i).gen + 1, entry := some (e.ended .armed) } ∧
        t.attention.entryNotices[i] = s.attention.entryNotices[i] ||| (e.defn.notify &&& EntryCause.ended.bit)) ∧
    s.withdraws t i e ∧ s.onlySlot t i ∧ s.onlyChannel t e.defn.channel ∧ s.evaluationOnly t

/-- The ARMED entry of slot `i` becomes SPENT, as `e` but for its state, and raises that cause if notify names it; autofree frees
it at once when notify lacks SPENT. No list changes (R8, R42, R46). -/
def State.spends (s t : State) (i : SlotNo) (e : Entry) : Prop :=
  (e.defn.freedWhenSpent →
      t.slot i = { gen := (s.slot i).gen + 2, entry := none } ∧ t.attention.entryNotices[i] = 0) ∧
    (¬e.defn.freedWhenSpent →
      t.slot i = { gen := (s.slot i).gen + 1, entry := some { e with state := .spent } } ∧
        t.attention.entryNotices[i] = s.attention.entryNotices[i] ||| (e.defn.notify &&& EntryCause.spent.bit)) ∧
    s.onlySlot t i ∧ t.arbiter = s.arbiter ∧ t.channels = s.channels ∧ s.evaluationOnly t

/-- The entry after an admission, or a resync's visit in its place, that left it as it was: admission due is cleared, and the
rejoin flag and interrupted with it (R50, R52, R55). -/
def Entry.visited (e : Entry) : Entry :=
  { e with admissionDue := false, rejoin := false, interrupted := false }

/-- A visit leaves the ARMED entry `e` of slot `i` as it was, but for its admission (R55, R59, R60). -/
def State.passesBy (s t : State) (i : SlotNo) (e : Entry) : Prop :=
  t = { s with
    table := s.table.set i { gen := (s.slot i).gen, entry := some e.visited }
    engine := t.engine }

/-- A visit leaves the ARMED entry `e` of slot `i` as it was, but for its admission, and raises MISSED if notify names it; its
generation stays (R59, R60). -/
def State.misses (s t : State) (i : SlotNo) (e : Entry) : Prop :=
  t.slot i = { gen := (s.slot i).gen, entry := some e.visited } ∧
    t.attention.entryNotices[i] = s.attention.entryNotices[i] ||| (e.defn.notify &&& EntryCause.missed.bit) ∧
    s.onlySlot t i ∧ t.arbiter = s.arbiter ∧ t.channels = s.channels ∧ s.evaluationOnly t

/-- The interrupted entry `e` of slot `i` rejoins its stamped occurrence, whose window closes at `close`: ACTIVE with its stamp and
budget kept, the claim handed to the arbiter as newly placed, STARTED not raised (R52, R58). -/
def State.rejoins (s t : State) (i : SlotNo) (e : Entry) (close : Minute) : Prop :=
  s.placesEntry t i ((s.slot i).gen + 1) { e.visited with state := .active, endDue := some close } 0

/-- The admission of the ARMED entry `e` of slot `i` at the minute `m`, in the steps of R50: it rejoins, or is SPENT with no budget
left, or is activated, or is left ARMED. -/
def State.admits (s t : State) (i : SlotNo) (e : Entry) (m : Minute) : Prop :=
  match e.rejoinWindow m with
  | some close => s.rejoins t i e close
  | none =>
    if e.remBudget = some 0 then s.spends t i e.visited
    else
      match e.admissible s.dates s.clock.date m with
      | some d => s.activates t i e d
      | none => s.passesBy t i e

/-- What follows a command that has left the ARMED entry `e` in slot `i` with admission due: nothing yet while the clock is
INVALID or a sweep has still to visit the slot, otherwise the admission at the clock's minute (R51). -/
def State.admissionFollows (s t : State) (i : SlotNo) (e : Entry) : Prop :=
  (s.clock.valid = false ∨ (∃ m cursor, s.engine.work = .sweep m cursor ∧ cursor ≤ i.val) → t = s) ∧
    (s.clock.valid = true →
      s.engine.work = .idle ∨ (∃ m cursor, s.engine.work = .sweep m cursor ∧ i.val < cursor) →
      s.admits t i e s.clock.now ∧ t.engine = s.engine)

/-! ### The claims of ports and inputs (R96, R97, R101) -/

/-- The claim of a port or an input, `claim`, is placed on channel `c`, as far as the list keeps it. A displaced entry loses held
and raises DISPLACED for its slot; the displaced claim of an input or a port raises DISPLACED for the channel. Nothing else
changes (R96, R97, R101). -/
def State.placesClaim (s t : State) (c : Chan) (claim : Claim) : Prop :=
  t.list c = (placeInList (s.list c) claim).list ∧ s.followsList t c ∧ s.onlyChannel t c ∧
    ((placeInList (s.list c) claim).displaced = none → t.table = s.table ∧ t.attention = s.attention) ∧
    (∀ i : SlotNo, s.pushesOut c claim (.entry i) →
      s.entryDisplaced t i ∧ s.onlySlot t i ∧ t.attention.channelNotices = s.attention.channelNotices) ∧
    (∀ src : Source, isEntrySource src = false → s.pushesOut c claim src →
      t.table = s.table ∧ t.attention.entryNotices = s.attention.entryNotices ∧
        t.attention.channelNotices =
          s.attention.channelNotices.set c (s.attention.channelNotices[c] ||| ChannelCause.displaced.bit)) ∧
    t = { s with
      table := t.table, arbiter := t.arbiter, channels := t.channels
      attention :=
        { s.attention with
          entryNotices := t.attention.entryNotices, channelNotices := t.attention.channelNotices
          pulse := t.attention.pulse } }

/-- What a qualified event does with the input's claim on one channel of the mask. -/
inductive InputAct where
  | place
  | remove
  | keep
  deriving DecidableEq, Repr

/-- By the mode, for a PRESS or a RELEASE, where a claim of the input is standing or not (R140 to R143). -/
def Mode.act (mode : Mode) (press standing : Bool) : InputAct :=
  match mode, press with
  | .momentary, true => .place
  | .momentary, false => .remove
  | .timed _, true => .place
  | .timed _, false => .keep
  | .toggle, true => if standing then .remove else .place
  | .toggle, false => .keep
  | .untilEdge, true => if standing then .remove else .place
  | .untilEdge, false => .keep

/-- The engine after a resync has been requested while the clock holds `now`: a resync with that captured time has started, or is
requested while a wipe holds the table (R53, R54, R65). -/
def Engine.resyncAt (e : Engine) (now : Moment) : Engine :=
  if e.wipe.isSome then { e with resyncRequested := true }
  else { e with work := .resync now (skippedInterval e.lastEvaluated now) 0, resyncRequested := false }

/-! ### Requests and their answers (R191, R198) -/

/-- The part runs and the slot of port `p` holds PENDING a request of command `c` with this tag and payload. -/
def State.asks (s : State) (p : Port) (c : Command) (tag : Byte) (payload : List Byte) : Prop :=
  s.running = true ∧ (s.port p).slot = .pending { tag := tag, code := c.code, payload := payload }

/-- The state with a response to the request of tag `tag` placed in the slot of port `p`, and IRQN following the PORT
group. -/
def State.answered (s : State) (p : Port) (tag : Byte) (reply : Reply) : State :=
  s.setPortSlot p (.ready (responseFrame tag reply))

/-- The row of the opcode table in which the owner of a command takes the request of port `p`. -/
def Command.row (p : Port) : Command → Instr
  | .readClock => .readClock p
  | .setClock => .setClock p
  | .snapMinute => .snapMinute p
  | .addDate => .addDate p
  | .removeDate => .removeDate p
  | .listDates => .listDates p
  | .addEntry => .addEntry p
  | .readEntry => .readEntry p
  | .modifyEntry => .modifyEntry p
  | .suspendEntry => .suspendEntry p
  | .resumeEntry => .resumeEntry p
  | .deleteEntry => .deleteEntry p
  | .findEntries => .findEntries p
  | .wipeTable => .wipeTable p
  | .configureChannel => .configureChannel p
  | .readChannel => .readChannel p
  | .forceChannel => .forceChannel p
  | .releaseChannel => .releaseChannel p
  | .clearFault => .clearFault p
  | .bindInput => .bindInput p
  | .readInput => .readInput p
  | .nextCause => .nextCause p
  | .nextEntryNotice => .nextEntryNotice p
  | .configureAttention => .configureAttention p
  | .takeChannelNotice => .takeChannelNotice p
  | .takeInputEvents => .takeInputEvents p
  | .ackClock => .ackClock p
  | .setPanelPolicy => .setPanelPolicy p

/-- The eight table commands (R70). -/
def Command.isTable : Command → Bool
  | .addEntry => true
  | .readEntry => true
  | .modifyEntry => true
  | .suspendEntry => true
  | .resumeEntry => true
  | .deleteEntry => true
  | .findEntries => true
  | .wipeTable => true
  | _ => false

/-- The permission a panel needs for a command whatever its payload (R199); the OTHERS tests on an entry's owner come on
top. -/
def Command.permission : Command → Option Permission
  | .setClock => some .calendar
  | .snapMinute => some .calendar
  | .addDate => some .calendar
  | .removeDate => some .calendar
  | .wipeTable => some .others
  | .forceChannel => some .force
  | .releaseChannel => some .force
  | .clearFault => some .force
  | .configureChannel => some .config
  | .bindInput => some .config
  | .configureAttention => some .config
  | _ => none

/-- From `u`, in which a resync or a wipe has just completed, to `t` the table command that waits in the slot of port `p` has been
taken, as its own row takes it; with no table command waiting there nothing has changed (R62, R71). -/
def State.taking (u : State) (p : Port) (t : State) : Prop :=
  (∀ (c : Command) (tag : Byte) (payload : List Byte), c.isTable = true → u.asks p c tag payload →
      exec (c.row p) u = .next t) ∧
    ((∀ (c : Command) (tag : Byte) (payload : List Byte), c.isTable = true → ¬u.asks p c tag payload) → t = u)

/-- The four commands that change an existing entry and carry its handle (R72). -/
def Command.takesHandle : Command → Bool
  | .modifyEntry => true
  | .suspendEntry => true
  | .resumeEntry => true
  | .deleteEntry => true
  | _ => false

/-- DENIED: the panel lacks the permission, SET_PANEL_POLICY comes from the panel, or the entry that the slot holds may not be
changed by the sender; a payload too short to name a slot names none (R72, R199, R200). -/
def State.deniedTo (s : State) (p : Port) (c : Command) (payload : List Byte) : Prop :=
  (∃ perm, c.permission = some perm ∧ s.allows p perm = false) ∨ (c = .setPanelPolicy ∧ p = .panel) ∨
    (c.takesHandle = true ∧ payload ≠ [] ∧ s.mayChange p (slotAt payload) = false)

/-- The arguments of a command are good; while the clock is VALID an ADD_DATE of a past date is not (R12, R34, R73, R205). -/
def State.argsGood (s : State) (payload : List Byte) : Command → Prop
  | .readClock => payload = []
  | .setClock => (readDateTime payload).isSome = true
  | .snapMinute => payload = []
  | .addDate => ∃ r, readDateRecord payload = some r ∧ (s.clock.valid = true → r.date.before s.clock.date = false)
  | .removeDate => (readDate payload).isSome = true
  | .listDates => (readDateIndex payload).isSome = true
  | .addEntry => (readDescriptor payload).isSome = true
  | .readEntry => (readSlotNo payload).isSome = true
  | .modifyEntry => (readModify payload).isSome = true
  | .suspendEntry => (readHandle payload).isSome = true
  | .resumeEntry => (readResume payload).isSome = true
  | .deleteEntry => (readHandle payload).isSome = true
  | .findEntries => (readFilter payload).isSome = true
  | .wipeTable => payload = []
  | .configureChannel => (readChannelConfig payload).isSome = true
  | .readChannel => (readChannelIndex payload).isSome = true
  | .forceChannel => (readForce payload).isSome = true
  | .releaseChannel => (readChannelNo payload).isSome = true
  | .clearFault => (readChannelNo payload).isSome = true
  | .bindInput => (readBindInput payload).isSome = true
  | .readInput => (readInputNo payload).isSome = true
  | .nextCause => payload = []
  | .nextEntryNotice => payload = []
  | .configureAttention => (readAttentionConfig payload).isSome = true
  | .takeChannelNotice => payload = []
  | .takeInputEvents => payload = []
  | .ackClock => (readClockCauses payload).isSome = true
  | .setPanelPolicy => (readPolicy payload).isSome = true

/-- NOCLOCK: SET_CLOCK needs a RUNNING timebase, SNAP_MINUTE and FORCE_CHANNEL a VALID clock (R105, R158, R161). -/
def State.lacksClock (s : State) (c : Command) : Prop :=
  (c = .setClock ∧ s.timebase.state ≠ .running) ∨ ((c = .snapMinute ∨ c = .forceChannel) ∧ s.clock.valid = false)

/-- NOTFOUND: no record of the date, an EMPTY slot, no claim of the port on the channel (R35, R70, R107). -/
def State.lacksObject (s : State) (p : Port) (c : Command) (payload : List Byte) : Prop :=
  (c = .removeDate ∧ recordFor s.dates.records (dateAt payload 0) = none) ∨
    ((c.takesHandle = true ∨ c = .readEntry) ∧ (s.slot (slotAt payload)).entry = none) ∨
    (c = .releaseChannel ∧ ∃ n, readChannelNo payload = some n ∧ claimOf (s.list n) (.port p) = none)

/-- STALE: the handle's generation is not the slot's (R24, R70). -/
def State.isStale (s : State) (c : Command) (payload : List Byte) : Prop :=
  c.takesHandle = true ∧ (s.slot (slotAt payload)).gen ≠ byteAt payload 1

/-- WRONGSTATE: SUSPEND_ENTRY on a SUSPENDED or SPENT entry, RESUME_ENTRY on one that is not SUSPENDED, CLEAR_FAULT on a channel
that is not FAULTED (R81, R83, R130). -/
def State.inWrongState (s : State) (c : Command) (payload : List Byte) : Prop :=
  (∃ e, (s.slot (slotAt payload)).entry = some e ∧
      (c = .suspendEntry ∧ (e.state = .suspended ∨ e.state = .spent) ∨ c = .resumeEntry ∧ e.state ≠ .suspended)) ∨
    (c = .clearFault ∧ ∃ n, readChannelNo payload = some n ∧ (s.channel n).state ≠ .faulted)

/-- FULL: 32 records and none of the date, no EMPTY slot, a list that would not keep the port's claim (R34, R74, R105). -/
def State.hasNoRoom (s : State) (p : Port) (c : Command) (payload : List Byte) : Prop :=
  (c = .addDate ∧ Config.dateCapacity ≤ s.dates.records.length ∧ ∀ r ∈ s.dates.records, r.date ≠ dateAt payload 0) ∨
    (c = .addEntry ∧ ∀ i : SlotNo, (s.slot i).entry ≠ none) ∨
    (c = .forceChannel ∧ ∃ f, readForce payload = some f ∧
      (placeInList (s.list f.channel) (f.claim p)).kept = false)

/-- The request of port `p` is refused with `status`: its condition holds and none of those that come before it in the order
DENIED, BADARG, NOCLOCK, NOTFOUND, STALE, WRONGSTATE, FULL (R33, R70, R105, R158). UNKNOWN and BADFRAME come before all of them,
as the port's own answers. -/
def State.refusedWith (s : State) (p : Port) (c : Command) (payload : List Byte) : Status → Prop
  | .ok => False
  | .badFrame => False
  | .unknown => False
  | .denied => s.deniedTo p c payload
  | .badArg => ¬s.deniedTo p c payload ∧ ¬s.argsGood payload c
  | .noClock => ¬s.deniedTo p c payload ∧ s.argsGood payload c ∧ s.lacksClock c
  | .notFound => ¬s.deniedTo p c payload ∧ s.argsGood payload c ∧ ¬s.lacksClock c ∧ s.lacksObject p c payload
  | .stale =>
    ¬s.deniedTo p c payload ∧ s.argsGood payload c ∧ ¬s.lacksClock c ∧ ¬s.lacksObject p c payload ∧ s.isStale c payload
  | .wrongState =>
    ¬s.deniedTo p c payload ∧ s.argsGood payload c ∧ ¬s.lacksClock c ∧ ¬s.lacksObject p c payload ∧ ¬s.isStale c payload ∧
      s.inWrongState c payload
  | .full =>
    ¬s.deniedTo p c payload ∧ s.argsGood payload c ∧ ¬s.lacksClock c ∧ ¬s.lacksObject p c payload ∧ ¬s.isStale c payload ∧
      ¬s.inWrongState c payload ∧ s.hasNoRoom p c payload

/-- The transactions that reach port `p` from outside (R187, R196). -/
def transactionOn (p : Port) : Instr → Bool
  | .submit q => decide (q = p)
  | .requestFrame q _ => decide (q = p)
  | .submitTruncated q => decide (q = p)
  | .fetch q _ => decide (q = p)
  | .poll q _ => decide (q = p)
  | .badKind q _ _ => decide (q = p)
  | .panelRead _ => decide (p = .panel)
  | _ => false

end Sys2Proof.Machine
end

