-- ==== Sys2Proof/WellFormed.lean ====
section
/-! DEFINITION. Which terms of `Instr` describe a step that the part can be given. An index operand (a slot, a channel, an
input) is in range by its type; what is left is checked here. -/

namespace Sys2Proof

/-- Only input and port claims carry the lifetime TIMED (R93). -/
def Source.mayBeTimed : Source → Bool
  | .entry _ => false
  | .input _ => true
  | .port _ => true

/-- The checks: a bad kind is a byte that is no kind (R194); frame bytes are at least one byte (R188); a port has one
waiting request, so it is taken once (R186); an entry's claim is never TIMED (R93). -/
def Instr.wellFormed : Instr → Bool
  | .submit _ => true
  | .requestFrame _ bytes => !bytes.isEmpty
  | .submitTruncated _ => true
  | .fetch _ _ => true
  | .poll _ _ => true
  | .badKind _ kind _ => (kindOf kind).isNone
  | .panelRead _ => true
  | .readClock _ => true
  | .setClock _ => true
  | .snapMinute _ => true
  | .addDate _ => true
  | .removeDate _ => true
  | .listDates _ => true
  | .addEntry _ => true
  | .readEntry _ => true
  | .modifyEntry _ => true
  | .suspendEntry _ => true
  | .resumeEntry _ => true
  | .deleteEntry _ => true
  | .findEntries _ => true
  | .wipeTable _ => true
  | .wipeSlot => true
  | .wipeComplete takes => decide takes.Nodup
  | .configureChannel _ => true
  | .readChannel _ => true
  | .forceChannel _ => true
  | .releaseChannel _ => true
  | .clearFault _ => true
  | .bindInput _ => true
  | .readInput _ => true
  | .nextCause _ => true
  | .nextEntryNotice _ => true
  | .configureAttention _ => true
  | .takeChannelNotice _ => true
  | .takeInputEvents _ => true
  | .ackClock _ => true
  | .setPanelPolicy _ => true
  | .secondBoundary => true
  | .sweepVisit => true
  | .sweepComplete => true
  | .resyncVisit => true
  | .resyncComplete takes => decide takes.Nodup
  | .eventCountdownEnd _ => true
  | .timedExpiry _ source => source.mayBeTimed
  | .guardExpiry _ => true
  | .proofTimerExpiry _ => true
  | .senseChange _ _ => true
  | .pulsePhaseEnd _ => true
  | .inputPinChange _ _ => true
  | .debounceExpiry _ => true
  | .irqnPulseEnd => true
  | .crystalEdge => true
  | .crystalTrusted => true
  | .crystalGap => true
  | .rstnLow => true
  | .mainResetEnd _ => true
  | .vmainLost => true
  | .vmainReturns _ => true
  | .vbakAppears => true
  | .vbakLost => true
  | .csnRises => true
  | .startCondition => true

end Sys2Proof
end

