-- ==== Sys2Proof/Certificates/Slice0/Obligations.lean ====
section
/-! DEFINITION. The statements about the model. Each is a closed proposition over the part's states and commands; its docstring
names the rules of spec/ it formalises, or says that it is the model's choice and names the log entry. -/

open Sys2Proof Sys2Proof.Machine

/-! ### The machine as a whole -/

/-- A step at a state with a command waiting is the meaning of the command at the front of the queue, on the state with the
queue's rest (notes/assumptions/5.md: the queue is the model's). -/
def Obligations.StepTakesFrontCommand : Prop :=
  ∀ (c : Instr) (rest : List Instr) (s : State),
    step { s with pending := c :: rest } = exec c { s with pending := rest }

/-- The model's choice (notes/assumptions/5.md): with no command waiting, the rows that are due join the queue, and when none is
due the step is one 10 ms tick. Due is a second boundary when the divider has completed a second, in RUNNING alone, and, in a part
that runs, a guard in GUARDING, a proof timer in SETTLING or DISAGREE and a pulse phase with no tick left, a debounce timer with
none left whose pin differs from the stable level, and an EVENT or TIMED claim with no second left. In a part that runs a tick
takes one from every 10 ms timer, and every tenth one from every 100 ms timer; it moves the tick chain, and the divider in
RUNNING, and changes nothing else. On backup supply and in a main reset it moves the tick chain and the divider alone, and in COLD
it changes nothing. So a timer of n ticks is due after its n-th tick, and a second boundary a hundred ticks after the divider
began its second (R121, R137, R149, R163). -/
def Obligations.IdleStepCountsTicks : Prop :=
  ∀ s : State, s.pending = [] →
    (s.dueRows ≠ [] → step s = .next { s with pending := s.dueRows }) ∧
    (s.running = false → s.dueRows =
      if s.supply ≠ .cold ∧ s.timebase.state = .running ∧ 100 ≤ s.timebase.subSecond then [.secondBoundary] else []) ∧
    (s.running = true → ∀ i : Instr, i ∈ s.dueRows ↔
      (i = .secondBoundary ∧ s.timebase.state = .running ∧ 100 ≤ s.timebase.subSecond) ∨
      (∃ c, i = .guardExpiry c ∧ (s.channel c).state = .guarding ∧ (s.channel c).guard = 0) ∨
      (∃ c, i = .proofTimerExpiry c ∧ ((s.channel c).proof = .settling ∨ (s.channel c).proof = .disagree) ∧
        (s.channel c).proofTicks = 0) ∨
      (∃ c, i = .pulsePhaseEnd c ∧ ((s.channel c).wave = .onPhase ∨ (s.channel c).wave = .offPhase) ∧
        (s.channel c).phaseTicks = 0) ∨
      (∃ c k minutes, i = .timedExpiry c k.source ∧ k ∈ s.list c ∧ k.lifetime = .timed minutes 0) ∨
      (∃ k, i = .debounceExpiry k ∧ (s.input k).debounceLeft = some 0 ∧ s.pins.inputs[k] ≠ (s.input k).stable) ∨
      ∃ j e, i = .eventCountdownEnd j ∧ (s.slot j).entry = some e ∧ e.state = .active ∧ e.defn.kind.isEvent = true ∧
        e.interrupted = false ∧ e.remSeconds = 0) ∧
    (s.running = false → s.dueRows = [] →
      ∃ t, step s = .next t ∧ t = { s with timebase := t.timebase } ∧ t.timebase.state = s.timebase.state ∧
        (s.supply = .cold → t = s) ∧
        (s.supply ≠ .cold →
          t.timebase.tickPhase = (if s.timebase.tickPhase < 9 then s.timebase.tickPhase + 1 else 0) ∧
          t.timebase.subSecond =
            (if s.timebase.state = .running then s.timebase.subSecond + 1 else s.timebase.subSecond))) ∧
    (s.running = true → s.dueRows = [] →
      ∃ t, step s = .next t ∧
        t = { s with timebase := t.timebase, channels := t.channels, inputs := t.inputs } ∧
        t.timebase.state = s.timebase.state ∧
        (∀ c : Chan, t.channel c =
          { s.channel c with
            phaseTicks := (s.channel c).phaseTicks - 1
            guard := if 9 ≤ s.timebase.tickPhase then (s.channel c).guard - 1 else (s.channel c).guard
            proofTicks :=
              if 9 ≤ s.timebase.tickPhase then (s.channel c).proofTicks - 1 else (s.channel c).proofTicks }) ∧
        (∀ k : InputNo, t.input k =
          { s.input k with debounceLeft := (s.input k).debounceLeft.map fun n => n - 1 }) ∧
        t.timebase.tickPhase = (if s.timebase.tickPhase < 9 then s.timebase.tickPhase + 1 else 0) ∧
        t.timebase.subSecond =
          (if s.timebase.state = .running then s.timebase.subSecond + 1 else s.timebase.subSecond))

/-- The model's choice (notes/assumptions/2.md: a row that its rule does not admit in the present state leaves the state as it is):
every row, in every state, answers a next state, with the queue behind it kept; none ends in a fault or a refusal. What a row
does, and where it does nothing, the statements about it say. -/
def Obligations.EveryCommandCompletes : Prop :=
  ∀ (c : Instr) (s : State), ∃ t, exec c s = .next t ∧ t.pending = s.pending

/-- What State.reset holds where the manual gives the value: the table EMPTY with generation 0 (R25), the date set empty with
Saturday as today's class (R37), the engine idle and knowing no evaluated minute (R69), the lists empty (R112), the settings of
R132, the bindings of R147, the timebase OFF and the clock at 2000-01-01 00:00:00 INVALID (R163), the attention unit of R176
with the INVALID cause of the restart (R182), the ports IDLE with their flags clear (R202), the policy empty; and that this
state is sound. The supplies and pin levels it stands on are the model's choice (notes/assumptions/3.md and 4.md). -/
def Obligations.ResetValues : Prop :=
  (∀ i : SlotNo, State.reset.slot i = { gen := 0, entry := none }) ∧
    State.reset.dates = { records := [], today := .weekday 5 } ∧
    State.reset.engine =
      { work := .idle, resyncRequested := false, boundaryNoted := false, lastEvaluated := none, wipe := none } ∧
    (∀ c : Chan, State.reset.list c = [] ∧ State.reset.lastTop c = none) ∧
    (∀ c : Chan, State.reset.config c =
      { enabled := false, activeLow := false, fallbackOn := false, guardTime := 0, proofEnable := false, proofTime := 10,
        invertedSense := false } ∧ (State.reset.channel c).state = .disabled ∧ (State.reset.channel c).commanded = .off) ∧
    (∀ k : InputNo, State.reset.binding k =
      { enabled := false, lowActive := true, debounce := 5, mask := 0, action := .off, priority := 9, mode := .momentary } ∧
        (State.reset.input k).debounceLeft = none ∧ (State.reset.input k).pressSeen = false ∧
        (State.reset.input k).releaseSeen = false) ∧
    State.reset.timebase.state = .off ∧
    State.reset.clock = { date := { year := 0, month := 1, day := 1 }, hour := 0, minute := 0, second := 0, valid := false } ∧
    State.reset.attention =
      { entryNotices := Vector.replicate 256 0, channelNotices := Vector.replicate 24 0, tickCause := false,
        invalidCause := true, groups := Vector.replicate 5 { enabled := false, level := 0 }, irqMode := .level,
        tickPeriod := .off, pulse := false } ∧
    (∀ p : Port, (State.reset.port p).slot = .idle ∧ (State.reset.port p).refused = false ∧
      (State.reset.port p).truncated = false ∧ (State.reset.port p).badKind = false) ∧
    State.reset.panelBus.selection = none ∧ State.reset.policy = 0 ∧ State.reset.supply = .normal ∧ State.reset.Sound

/-- The model's choice (notes/assumptions/3.md and 4.md): State.reset is what VMAIN_RETURNS makes of any state of the part in
COLD with no command waiting, when the pins stand at their power-up levels and ADSEL is low. Nothing the part held before
matters (R180). -/
def Obligations.FirstPowerUpIsReset : Prop :=
  ∀ s : State, s.supply = .cold → s.pins = Pins.powerUp → s.pending = [] →
    exec (.vmainReturns false) s = .next State.reset

/-! ### Encodings (chapter 12) -/

/-- The codes of the ten statuses (R209). -/
def Obligations.StatusCodes : Prop :=
  Status.code .ok = 0x00 ∧ Status.code .badFrame = 0x01 ∧ Status.code .unknown = 0x02 ∧ Status.code .badArg = 0x03 ∧
    Status.code .notFound = 0x04 ∧ Status.code .stale = 0x05 ∧ Status.code .full = 0x06 ∧ Status.code .denied = 0x07 ∧
    Status.code .noClock = 0x08 ∧ Status.code .wrongState = 0x09

/-- A response frame of a payload of n bytes, n at most 60: the tag at offset 0, the status code at 1, n at 2, the payload at 3
to 2+n, the CRC of all these at 3+n and nothing after it; a request frame likewise with its command code at 1 (R203). The same
computation over the whole frame gives 0 (R204). -/
def Obligations.FrameLayout : Prop :=
  (∀ (tag : Byte) (reply : Reply), reply.payload.length ≤ Config.maxPayload →
    let f := responseFrame tag reply
    f.length = reply.payload.length + 4 ∧ byteAt f 0 = tag ∧ byteAt f 1 = reply.status.code ∧
      natAt f 2 = reply.payload.length ∧ (f.drop 3).take reply.payload.length = reply.payload ∧
      byteAt f (reply.payload.length + 3) = crc (f.take (reply.payload.length + 3)) ∧ crc f = 0) ∧
  ∀ r : Request, r.payload.length ≤ Config.maxPayload →
    let f := requestFrame r
    f.length = r.payload.length + 4 ∧ byteAt f 0 = r.tag ∧ byteAt f 1 = r.code ∧ natAt f 2 = r.payload.length ∧
      (f.drop 3).take r.payload.length = r.payload ∧
      byteAt f (r.payload.length + 3) = crc (f.take (r.payload.length + 3)) ∧ crc f = 0

/-- The descriptor of every definition whose fields are in their ranges reads back as that definition: no field, flag or bit of
the layout is lost (R12, R205 to R207). -/
def Obligations.DescriptorRoundTrip : Prop :=
  ∀ d : Definition, d.sound → readDescriptor d.bytes = some d

/-- A request sent whole is the request that waits: on a port that answers and whose slot is IDLE, the SUBMIT kind byte and then
the frame of any request whose code the part knows and whose payload is at most 60 bytes leave the slot PENDING with exactly
that request (R188, R191, R203); the flags, the other port and everything but the port's outputs stay (R186). -/
def Obligations.SubmittedRequestIsPending : Prop :=
  ∀ (s : State) (p : Port) (r : Request), s.answers p = true → (s.port p).slot = .idle →
    commandOf r.code ≠ none → r.payload.length ≤ Config.maxPayload →
    ∃ u t, exec (.submit p) s = .next u ∧ (u.port p).slot = .receiving [] ∧
      exec (.requestFrame p (requestFrame r)) u = .next t ∧ (t.port p).slot = .pending r ∧
      (t.port p).refused = (s.port p).refused ∧ (t.port p).truncated = (s.port p).truncated ∧
      (t.port p).badKind = (s.port p).badKind ∧ (t.port p).listening = true ∧
      (p = .main → t.panelPort = s.panelPort ∧ t.panelBus = s.panelBus) ∧ (p = .panel → t.mainPort = s.mainPort) ∧
      t = { s with
        mainPort := t.mainPort, panelPort := t.panelPort, panelBus := t.panelBus
        attention := { s.attention with pulse := t.attention.pulse } }

/-- A frame that carries no good request, received on a port that answers and has taken the SUBMIT kind byte: a length byte above
60 makes it damaged at once and the bytes after it are ignored; a CRC that disagrees makes it damaged at its last byte; a good
frame whose code the part does not know is answered UNKNOWN. The answer echoes the tag and carries no payload (R188, R191). The
codes the part knows are those of the 28 commands (R208). -/
def Obligations.DamagedOrUnknownFrame : Prop :=
  (∀ (s : State) (p : Port) (tag code n : Byte) (rest : List Byte), s.answers p = true →
    (s.port p).slot = .receiving [] → Config.maxPayload < n.toNat →
    ∃ t, exec (.requestFrame p ([tag, code, n] ++ rest)) s = .next t ∧
      (t.port p).slot = .ready (responseFrame tag (Reply.refusal .badFrame))) ∧
  (∀ (s : State) (p : Port) (tag code c : Byte) (payload : List Byte), s.answers p = true →
    (s.port p).slot = .receiving [] → payload.length ≤ Config.maxPayload →
    c ≠ crc ([tag, code, byteOf payload.length] ++ payload) →
    ∃ t, exec (.requestFrame p ([tag, code, byteOf payload.length] ++ payload ++ [c])) s = .next t ∧
      (t.port p).slot = .ready (responseFrame tag (Reply.refusal .badFrame))) ∧
  (∀ (s : State) (p : Port) (r : Request), s.answers p = true → (s.port p).slot = .receiving [] →
    r.payload.length ≤ Config.maxPayload → commandOf r.code = none →
    ∃ t, exec (.requestFrame p (requestFrame r)) s = .next t ∧
      (t.port p).slot = .ready (responseFrame r.tag (Reply.refusal .unknown))) ∧
  (∀ (b : Byte) (c : Command), commandOf b = some c ↔ c.code = b) ∧
  Command.code .readClock = 0x10 ∧ Command.code .setClock = 0x11 ∧ Command.code .snapMinute = 0x12 ∧
    Command.code .addDate = 0x18 ∧ Command.code .removeDate = 0x19 ∧ Command.code .listDates = 0x1A ∧
    Command.code .addEntry = 0x20 ∧ Command.code .readEntry = 0x21 ∧ Command.code .modifyEntry = 0x22 ∧
    Command.code .suspendEntry = 0x23 ∧ Command.code .resumeEntry = 0x24 ∧ Command.code .deleteEntry = 0x25 ∧
    Command.code .findEntries = 0x26 ∧ Command.code .wipeTable = 0x27 ∧ Command.code .configureChannel = 0x30 ∧
    Command.code .readChannel = 0x31 ∧ Command.code .forceChannel = 0x32 ∧ Command.code .releaseChannel = 0x33 ∧
    Command.code .clearFault = 0x34 ∧ Command.code .bindInput = 0x38 ∧ Command.code .readInput = 0x39 ∧
    Command.code .nextCause = 0x40 ∧ Command.code .nextEntryNotice = 0x41 ∧ Command.code .configureAttention = 0x42 ∧
    Command.code .takeChannelNotice = 0x43 ∧ Command.code .takeInputEvents = 0x44 ∧ Command.code .ackClock = 0x45 ∧
    Command.code .setPanelPolicy = 0x48

/-- The calendar: the date after a possible date is possible, is the next weekday, and is the next day counted from 2000-01-01
and later in calendar order unless the century wraps; 2099-12-31 is followed by 2000-01-01 (R27, R151). That the date before is
the one whose next date it is rests on notes/assumptions/21.md. -/
def Obligations.NextDateIsNextDay : Prop :=
  (∀ d : Date, d.possible = true →
    d.next.possible = true ∧ d.next.previous = d ∧ d.previous.next = d ∧
      (d ≠ { year := 99, month := 12, day := 31 } →
        d.next.dayNumber = d.dayNumber + 1 ∧ d.before d.next = true ∧ d.next.weekday = d.weekday + 1)) ∧
    Date.next { year := 99, month := 12, day := 31 } = { year := 0, month := 1, day := 1 } ∧
    Date.weekday { year := 0, month := 1, day := 1 } = 5 ∧ Date.weekday { year := 99, month := 12, day := 31 } = 3

/-! ### The ports (sections 11.2 and 11.3) -/

/-- A SUBMIT on a port whose slot holds anything sets REFUSED and leaves the slot with what it holds; the other flags and
everything else stay, but for the outputs of the transaction and, on the panel port, the read selection that every write clears
(R189, R195, R196). -/
def Obligations.BusySubmitIsRefused : Prop :=
  (∀ s : State, s.answers .main = true → s.mainPort.slot ≠ .idle →
    exec (.submit .main) s = .next { s with mainPort := { s.mainPort with refused := true, shifted := [] } }) ∧
  ∀ s : State, s.answers .panel = true → s.panelPort.slot ≠ .idle →
    exec (.submit .panel) s =
      .next
        { s with
          panelPort := { s.panelPort with refused := true, shifted := [] }
          panelBus := { s.panelBus with selection := none, acks := [true, true] } }

/-- A SUBMIT transaction that ends before its frame is whole: the bytes received are discarded, the slot returns to IDLE and
TRUNCATED is set, and nothing else changes; a slot that was never in RECEIVING, or has left it by a damaged length, keeps what
it holds and TRUNCATED is not set (R190; on the panel port R197). -/
def Obligations.FrameCutShort : Prop :=
  (∀ (s : State) (bytes : List Byte), s.answers .main = true → s.mainPort.slot = .receiving bytes →
    exec (.submitTruncated .main) s = .next { s with mainPort := { s.mainPort with slot := .idle, truncated := true } } ∧
      exec .csnRises s = .next { s with mainPort := { s.mainPort with slot := .idle, truncated := true } }) ∧
  (∀ (s : State) (bytes : List Byte), s.answers .panel = true → s.panelPort.slot = .receiving bytes →
    exec (.submitTruncated .panel) s =
        .next { s with panelPort := { s.panelPort with slot := .idle, truncated := true } } ∧
      exec .startCondition s = .next { s with panelPort := { s.panelPort with slot := .idle, truncated := true } }) ∧
  ∀ s : State, s.running = true →
    ((∀ bytes, s.mainPort.slot ≠ .receiving bytes) →
      exec (.submitTruncated .main) s = .next s ∧
        ∃ listening : Bool,
          exec .csnRises s = .next { s with mainPort := { s.mainPort with listening := listening } }) ∧
    ((∀ bytes, s.panelPort.slot ≠ .receiving bytes) →
      exec (.submitTruncated .panel) s = .next s ∧
        ∃ listening : Bool,
          exec .startCondition s = .next { s with panelPort := { s.panelPort with listening := listening } })

/-- A port that has not regained its footing since the last main reset, or that belongs to a part that does not run, takes no
transaction. CSN rising gives the main port of a part that runs its footing, and a START condition the panel port, with nothing
else changed when no frame is being received; neither reaches a part that does not run (R179, R181, R202; the footing is the
model's field listening, notes/assumptions/8.md). -/
def Obligations.DeafUntilFooting : Prop :=
  (∀ (s : State) (p : Port) (i : Instr), s.answers p = false → transactionOn p i = true → exec i s = .next s) ∧
    (∀ s : State, s.running = false → exec .csnRises s = .next s ∧ exec .startCondition s = .next s) ∧
    ∀ s : State, s.running = true →
      ((∀ bytes, s.mainPort.slot ≠ .receiving bytes) →
        ∃ t, exec .csnRises s = .next t ∧ t = { s with mainPort := { s.mainPort with listening := true } } ∧
          t.answers .main = true) ∧
      ((∀ bytes, s.panelPort.slot ≠ .receiving bytes) →
        ∃ t, exec .startCondition s = .next t ∧ t = { s with panelPort := { s.panelPort with listening := true } } ∧
          t.answers .panel = true)

/-- FETCH on the main port: a response is shifted out from its tag, followed by 0xFF; when its last byte has been shifted the
slot returns to IDLE, and when the host stops before that the response stays whole. With no response ready the port shifts 0xEE
and then 0xFF and the slot is unchanged (R192). -/
def Obligations.MainFetch : Prop :=
  (∀ (s : State) (frame : List Byte) (n : Nat), s.answers .main = true → s.mainPort.slot = .ready frame →
    (n < frame.length →
      exec (.fetch .main n) s = .next { s with mainPort := { s.mainPort with shifted := frame.take n } }) ∧
    (frame.length ≤ n →
      exec (.fetch .main n) s =
        .next
          (State.setPortSlot
            { s with mainPort := { s.mainPort with shifted := frame ++ List.replicate (n - frame.length) 0xFF } } .main
            .idle))) ∧
  ∀ (s : State) (n : Nat), s.answers .main = true →
    (s.mainPort.slot = .idle ∨ ∃ r, s.mainPort.slot = .pending r) →
    exec (.fetch .main 0) s = .next { s with mainPort := { s.mainPort with shifted := [] } } ∧
      exec (.fetch .main (n + 1)) s =
        .next { s with mainPort := { s.mainPort with shifted := 0xEE :: List.replicate n 0xFF } }

/-- POLL on the main port: the status byte, the pending-group summary, then 0xFF; the three flags are cleared when the status
byte has been shifted, and the slot is not touched (R193). The status byte shows the slot state in bits 0 and 1, the flags in
bits 2 to 4, the clock's validity in bit 5 and a resync in flight in bit 6 (R207). -/
def Obligations.MainPoll : Prop :=
  ∀ s : State, s.answers .main = true → (∀ bytes, s.mainPort.slot ≠ .receiving bytes) →
    exec (.poll .main 0) s = .next { s with mainPort := { s.mainPort with shifted := [] } } ∧
      ∀ n : Nat, ∃ status summary : Byte,
        exec (.poll .main (n + 1)) s =
          .next
            { s with
              mainPort :=
                { s.mainPort with
                  refused := false, truncated := false, badKind := false
                  shifted := List.take (n + 1) (status :: summary :: List.replicate (n - 1) 0xFF) } } ∧
        (status.toNat % 4 =
          match s.mainPort.slot with
          | .idle => 0
          | .receiving _ => 1
          | .pending _ => 2
          | .ready _ => 3) ∧
        status.getLsbD 2 = s.mainPort.refused ∧ status.getLsbD 3 = s.mainPort.truncated ∧
        status.getLsbD 4 = s.mainPort.badKind ∧ status.getLsbD 5 = s.clock.valid ∧
        status.getLsbD 6 = s.engine.work.isResync ∧ status.getLsbD 7 = false ∧
        summary.getLsbD 0 = s.groupPending .entry ∧ summary.getLsbD 1 = s.groupPending .channel ∧
        summary.getLsbD 2 = s.groupPending .input ∧ summary.getLsbD 3 = s.groupPending .clock ∧
        summary.getLsbD 4 = s.groupPending .port

/-- The panel port's two-part FETCH and POLL: the write, whose bytes after the kind are not acknowledged, leaves the read
selection and touches nothing else, and the read transaction that follows uses it and clears it, shifting what a FETCH or POLL of
the panel's own slot gives. A read with no selection returns 0xFF and sets BADKIND (R196). -/
def Obligations.PanelReads : Prop :=
  ∀ s : State, s.answers .panel = true → (∀ bytes, s.panelPort.slot ≠ .receiving bytes) →
    (∀ n : Nat,
      exec (.fetch .panel n) s =
          .next
            { s with
              panelBus :=
                { s.panelBus with selection := some .fetch, acks := true :: true :: List.replicate n false } } ∧
        exec (.poll .panel n) s =
          .next
            { s with
              panelBus :=
                { s.panelBus with selection := some .poll, acks := true :: true :: List.replicate n false } }) ∧
    (∀ (frame : List Byte) (n : Nat), s.panelBus.selection = some .fetch → s.panelPort.slot = .ready frame →
      ∃ t, exec (.panelRead n) s = .next t ∧ t.panelBus = { s.panelBus with selection := none } ∧
        t.panelPort.shifted = frame.take n ++ List.replicate (n - frame.length) 0xFF ∧
        t.panelPort.slot = (if frame.length ≤ n then .idle else .ready frame) ∧ t.mainPort = s.mainPort) ∧
    (∀ n : Nat, s.panelBus.selection = some .fetch → s.panelPort.slot = .idle →
      exec (.panelRead (n + 1)) s =
        .next
          { s with
            panelBus := { s.panelBus with selection := none }
            panelPort := { s.panelPort with shifted := 0xEE :: List.replicate n 0xFF } }) ∧
    (∀ n : Nat, s.panelBus.selection = some .poll →
      exec (.panelRead (n + 2)) s =
        .next
          { s with
            panelBus := { s.panelBus with selection := none }
            panelPort :=
              { s.panelPort with
                refused := false, truncated := false, badKind := false
                shifted := s.statusByte .panel :: s.pendingGroups :: List.replicate n 0xFF } }) ∧
    ∀ n : Nat, s.panelBus.selection = none →
      exec (.panelRead n) s =
        .next { s with panelPort := { s.panelPort with badKind := true, shifted := List.replicate n 0xFF } }

/-- The kind byte 0xA1 begins a SUBMIT, 0xA2 a FETCH and 0xA3 a POLL, and any other byte a bad kind (R187). A bad kind sets
BADKIND and the rest of the transaction is ignored: 0xFF for every byte on the main port, no acknowledgement of the kind or of a
later byte and no read selection on the panel port; the slot stays (R194, R195, R196; that an ignored byte is not acknowledged is
notes/assumptions/10.md). -/
def Obligations.BadKindIsFlagged : Prop :=
  (∀ (p : Port) (n : Nat), transactionOf p 0xA1 n = .submit p ∧ transactionOf p 0xA2 n = .fetch p n ∧
    transactionOf p 0xA3 n = .poll p n) ∧
  ∀ (s : State) (kind : Byte) (n : Nat), kind ≠ 0xA1 → kind ≠ 0xA2 → kind ≠ 0xA3 →
    (s.answers .main = true → (∀ bytes, s.mainPort.slot ≠ .receiving bytes) →
      transactionOf .main kind n = .badKind .main kind n ∧
        exec (.badKind .main kind n) s =
          .next { s with mainPort := { s.mainPort with badKind := true, shifted := List.replicate n 0xFF } }) ∧
    (s.answers .panel = true → (∀ bytes, s.panelPort.slot ≠ .receiving bytes) →
      transactionOf .panel kind n = .badKind .panel kind n ∧
        exec (.badKind .panel kind n) s =
          .next
            { s with
              panelPort := { s.panelPort with badKind := true }
              panelBus := { s.panelBus with selection := none, acks := true :: false :: List.replicate n false } })

/-! ### Every host command (sections 11.4 and 11.5) -/

/-- A command answered by any status other than OK has changed nothing, and its response carries an empty payload (R198): when a
command's row places a response with a refusing status, the state differs from the one before in that response alone. A table
command that is not taken because a resync or a WIPE_TABLE is in flight changes nothing either: its request goes on waiting
PENDING (R63, R71). -/
def Obligations.RefusedOrWaitingChangesNothing : Prop :=
  (∀ (c : Command) (p : Port) (s t : State) (tag : Byte) (payload : List Byte) (reply : Reply),
    s.asks p c tag payload → exec (c.row p) s = .next t → (t.port p).slot = .ready (responseFrame tag reply) →
    reply.status ≠ .ok → reply.payload = [] ∧ t = s.answered p tag reply) ∧
  ∀ (c : Command) (p : Port) (s : State), c.isTable = true → s.tableFree = false → exec (c.row p) s = .next s

/-- Who is refused, and in what order. A panel request that needs a permission the panel policy lacks is refused DENIED whatever
its payload (R199). The four commands on an entry are refused DENIED to the panel on a MAIN-owned entry without OTHERS, and to
either port on a guarded entry of the other (R72). The main port is never refused by the panel policy: it is DENIED only those four
commands on a guarded PANEL-owned entry (R72, R199). Every command is refused with the first status that applies in the order
DENIED, BADARG, NOCLOCK, NOTFOUND, STALE, WRONGSTATE, FULL, and otherwise answers OK; a WIPE_TABLE then holds the table and answers
when it completes (R33, R70, R88, R105, R158). A table command waits while the table is not free, and no other does (R71). -/
def Obligations.PanelNeedsPermission : Prop :=
  (∀ (c : Command) (perm : Permission) (s : State) (tag : Byte) (payload : List Byte), c.permission = some perm →
    s.policy.getLsbD perm.bit = false → s.asks .panel c tag payload → (c.isTable = true → s.tableFree = true) →
    exec (c.row .panel) s = .next (s.answered .panel tag (Reply.refusal .denied))) ∧
  (∀ (c : Command) (s : State) (tag : Byte) (i : SlotNo) (rest : List Byte) (e : Entry), c.takesHandle = true →
    (s.slot i).entry = some e → e.owner = .main → s.policy.getLsbD Permission.others.bit = false ∨ e.defn.guarded = true →
    s.asks .panel c tag (byteOf i.val :: rest) → s.tableFree = true →
    exec (c.row .panel) s = .next (s.answered .panel tag (Reply.refusal .denied))) ∧
  (∀ (c : Command) (s : State) (tag : Byte) (i : SlotNo) (rest : List Byte) (e : Entry), c.takesHandle = true →
    (s.slot i).entry = some e → e.owner = .panel → e.defn.guarded = true → s.asks .main c tag (byteOf i.val :: rest) →
    s.tableFree = true →
    exec (c.row .main) s = .next (s.answered .main tag (Reply.refusal .denied))) ∧
  (∀ (c : Command) (s : State) (tag : Byte) (payload : List Byte), s.asks .main c tag payload →
    exec (c.row .main) s = .next (s.answered .main tag (Reply.refusal .denied)) →
    c.takesHandle = true ∧
      ∃ e, (s.slot (slotAt payload)).entry = some e ∧ e.owner = .panel ∧ e.defn.guarded = true) ∧
  ∀ (c : Command) (s : State) (p : Port) (tag : Byte) (payload : List Byte), s.asks p c tag payload →
    (c.isTable = true → s.tableFree = true) →
    (∀ status : Status, s.refusedWith p c payload status →
      exec (c.row p) s = .next (s.answered p tag (Reply.refusal status))) ∧
    ((∀ status : Status, ¬s.refusedWith p c payload status) →
      (c ≠ .wipeTable →
        ∃ (u : State) (result : List Byte), exec (c.row p) s = .next (u.answered p tag (Reply.ok result))) ∧
      (c = .wipeTable →
        exec (c.row p) s = .next { s with engine := { s.engine with wipe := some { port := p, cursor := 0 } } }))

/-! ### The commands: clock and dates -/

/-- The reading commands answer with what the state holds and change nothing else: READ_CLOCK (R157), READ_ENTRY (R76),
READ_CHANNEL with up to three claim reports from the index on (R131), READ_INPUT (R146), in the layouts of R206 to R208. That the
pin level byte of READ_INPUT is 1 for HIGH and 0 for LOW is the model's choice (notes/assumptions/24.md), and so is that a timer
whose last tick is counted and whose expiry is still to be taken shows one tick left (notes/assumptions/5.md). -/
def Obligations.ReadersReport : Prop :=
  (∀ (s : State) (p : Port) (tag : Byte), s.asks p .readClock tag [] →
    exec (.readClock p) s =
      .next
        (s.answered p tag
          (Reply.ok
            [byteOf s.clock.date.year, byteOf s.clock.date.month, byteOf s.clock.date.day, byteOf s.clock.hour,
              byteOf s.clock.minute, byteOf s.clock.second, byteOf s.clock.date.weekday.val, byteOf s.dates.today.code,
              if s.clock.valid then 1 else 0, s.timebase.state.code, s.engine.work.code]))) ∧
  (∀ (s : State) (p : Port) (tag : Byte) (i : SlotNo) (e : Entry), s.asks p .readEntry tag [byteOf i.val] →
    s.tableFree = true → (s.slot i).entry = some e →
    exec (.readEntry p) s = .next (s.answered p tag (Reply.ok (statusBlock i (s.slot i).gen e ++ e.defn.bytes)))) ∧
  (∀ (s : State) (p : Port) (tag : Byte) (c : Chan) (index : Nat), index ≤ 8 →
    s.asks p .readChannel tag [byteOf c.val, byteOf index] →
    ∃ claims : List Claim, claims = ((s.list c).drop index).take 3 ∧
      exec (.readChannel p) s =
        .next
          (s.answered p tag
            (Reply.ok
              (channelReport (s.config c) (s.channel c) s.pins.senses[c] (s.list c).length ++
                byteOf claims.length :: claims.flatMap Claim.bytes)))) ∧
  ∀ (s : State) (p : Port) (tag : Byte) (k : InputNo), s.asks p .readInput tag [byteOf k.val] →
    ∃ standing : BitVec 24, (∀ c : Chan, standing.getLsbD c.val = (claimOf (s.list c) (.input k)).isSome) ∧
      exec (.readInput p) s =
        .next
          (s.answered p tag
            (Reply.ok
              ((s.binding k).bytes ++
                [if s.pins.inputs[k] then 1 else 0,
                  flagBit (s.input k).stable 0 ||| flagBit ((s.input k).stable != (s.binding k).lowActive) 1,
                  (match (s.input k).debounceLeft with
                    | none => 0
                    | some 0 => 1
                    | some (n + 1) => byteOf (n + 1)),
                  flagBit (s.input k).pressSeen 0 ||| flagBit (s.input k).releaseSeen 1] ++
                bytes3 standing.toNat)))

/-- The paging commands. LIST_DATES answers the count of records and those at places k to k+11 that exist, in order (R36).
FIND_ENTRIES answers, in ascending order, the slots from its cursor up to its next cursor that its filter admits and no other;
they are at most 24, and the next cursor is 256 unless 24 were found (R86, R87). Neither changes anything else. -/
def Obligations.PagesReport : Prop :=
  (∀ (s : State) (p : Port) (tag : Byte) (k : Nat), k ≤ 31 → s.asks p .listDates tag [byteOf k] →
    ∃ page : List DateRecord, page = (s.dates.records.drop k).take 12 ∧
      exec (.listDates p) s =
        .next
          (s.answered p tag
            (Reply.ok
              (byteOf s.dates.records.length :: byteOf page.length :: page.flatMap DateRecord.bytes)))) ∧
  ∀ (s : State) (p : Port) (tag : Byte) (payload : List Byte) (f : Filter), s.asks p .findEntries tag payload →
    s.tableFree = true → readFilter payload = some f →
    ∃ (found : List SlotNo) (cursor : Nat),
      exec (.findEntries p) s =
        .next
          (s.answered p tag
            (Reply.ok
              (byteOf found.length :: found.flatMap (fun i => [byteOf i.val, (s.slot i).gen]) ++ bytes2 cursor))) ∧
      found.Pairwise (fun i j => i.val < j.val) ∧ found.length ≤ 24 ∧ cursor ≤ 256 ∧
      (cursor < 256 → found.length = 24) ∧
      ∀ i : SlotNo, i ∈ found ↔ f.cursor ≤ i.val ∧ i.val < cursor ∧ f.admits (s.slot i) = true

/-- SET_CLOCK with a possible date and time and a RUNNING timebase: the clock takes the value and is VALID, the divider starts a
second, the records before the new date leave the set, today's class follows the new date, and a resync of the new time is
requested, which starts at once or when the wipe that holds the table completes; nothing else changes (R159, R29, R53, R65). -/
def Obligations.SetClockTakesTheTime : Prop :=
  ∀ (s : State) (p : Port) (tag : Byte) (d : Date) (t : DayMinute) (second : Nat), s.allows p .calendar = true →
    d.possible = true → t.possible = true → second ≤ 59 → s.timebase.state = .running →
    s.asks p .setClock tag (d.bytes ++ t.bytes ++ [byteOf second]) →
    ∃ u : State, exec (.setClock p) s = .next (u.answered p tag (Reply.ok [])) ∧
      u = { s with
        clock := { date := d, hour := t.hour, minute := t.minute, second := second, valid := true }
        timebase := { s.timebase with subSecond := 0 }
        dates := u.dates
        engine := u.engine } ∧
      u.dates.records = s.dates.records.filter (fun r => !r.date.before d) ∧
      u.dates.today = dayClassOf u.dates.records d ∧
      u.engine = s.engine.resyncAt { date := d, time := t, second := second }

/-- SNAP_MINUTE on a VALID clock: with seconds 0 to 29 they become 0 and the divider starts a second; with 30 to 59 the next
minute begins, which at midnight is a date change, and the engine starts a sweep for it or notes it, and TICK follows its period;
nothing else changes (R161, R40, R152, R162). -/
def Obligations.SnapMinuteRounds : Prop :=
  ∀ (s : State) (p : Port) (tag : Byte), s.allows p .calendar = true → s.clock.valid = true →
    s.asks p .snapMinute tag [] →
    (s.clock.second < 30 →
      exec (.snapMinute p) s =
        .next
          (State.answered
            { s with clock := { s.clock with second := 0 }, timebase := { s.timebase with subSecond := 0 } } p tag
            (Reply.ok []))) ∧
    (30 ≤ s.clock.second →
      ∃ u : State, exec (.snapMinute p) s = .next (u.answered p tag (Reply.ok [])) ∧
        u = { s with
          clock :=
            if s.clock.minute < 59 then { s.clock with minute := s.clock.minute + 1, second := 0 }
            else if s.clock.hour < 23 then { s.clock with hour := s.clock.hour + 1, minute := 0, second := 0 }
            else { s.clock with date := s.clock.date.next, hour := 0, minute := 0, second := 0 }
          timebase := { s.timebase with subSecond := 0 }
          dates := u.dates
          engine := u.engine
          attention := { s.attention with tickCause := u.attention.tickCause, pulse := u.attention.pulse } } ∧
        (s.clock.minute < 59 ∨ s.clock.hour < 23 → u.dates = s.dates) ∧
        (59 ≤ s.clock.minute → 23 ≤ s.clock.hour →
          u.dates.records = s.dates.records.filter (fun r => !r.date.before u.clock.date) ∧
            u.dates.today = dayClassOf u.dates.records u.clock.date) ∧
        u.engine =
          (if s.engine.work.inFlight ∨ s.engine.wipe.isSome then { s.engine with boundaryNoted := true }
          else { s.engine with work := .sweep u.clock.now 0, boundaryNoted := false }) ∧
        u.attention.tickCause =
          (s.attention.tickCause ||
            match s.attention.tickPeriod with
            | .off => false
            | .second => true
            | .minute => true
            | .hour => decide (u.clock.minute = 0)
            | .day => decide (u.clock.hour = 0 ∧ u.clock.minute = 0)))

/-- ADD_DATE and REMOVE_DATE on a sound date set: ascending, of possible dates (the premise DatesSound rules out sets that no run
reaches; every step keeps it, StepKeepsDatesAndClockSound). An accepted ADD_DATE leaves the set in order with the new record, which
replaces one of its date, and the others; REMOVE_DATE leaves all but the record of its date. Today's class is computed afresh,
and while the clock is VALID a change of it requests a resync, which starts at the clock's present time, or is noted while a
WIPE_TABLE holds the table; nothing else changes (R26, R28, R32, R34, R35, R53, R65). -/
def Obligations.DateCommandsKeepTheSet : Prop :=
  (∀ (s : State) (p : Port) (tag : Byte) (d : Date) (ty : DayType), s.allows p .calendar = true → d.possible = true →
    s.DatesSound →
    (s.clock.valid = true → d.before s.clock.date = false) →
    ((∃ r ∈ s.dates.records, r.date = d) ∨ s.dates.records.length < 32) →
    s.asks p .addDate tag (d.bytes ++ [ty.code]) →
    ∃ u : State, exec (.addDate p) s = .next (u.answered p tag (Reply.ok [])) ∧
      u = { s with dates := u.dates, engine := u.engine } ∧
      u.dates.records.Pairwise (fun a b => a.date.before b.date = true) ∧
      (∀ r : DateRecord, r ∈ u.dates.records ↔
        r = { date := d, dayType := ty } ∨ r ∈ s.dates.records ∧ r.date ≠ d) ∧
      u.dates.today = dayClassOf u.dates.records s.clock.date ∧
      u.engine =
        if s.clock.valid = true ∧ u.dates.today ≠ s.dates.today then s.engine.resyncAt s.clock.moment else s.engine) ∧
  ∀ (s : State) (p : Port) (tag : Byte) (d : Date), s.allows p .calendar = true → d.possible = true →
    (∃ r ∈ s.dates.records, r.date = d) → s.asks p .removeDate tag d.bytes →
    ∃ u : State, exec (.removeDate p) s = .next (u.answered p tag (Reply.ok [])) ∧
      u = { s with dates := u.dates, engine := u.engine } ∧
      u.dates.records = s.dates.records.filter (fun r => decide (r.date ≠ d)) ∧
      u.dates.today = dayClassOf u.dates.records s.clock.date ∧
      u.engine =
        if s.clock.valid = true ∧ u.dates.today ≠ s.dates.today then s.engine.resyncAt s.clock.moment else s.engine

/-! ### The commands: the table -/

/-- ADD_ENTRY with a good descriptor and an EMPTY slot: the lowest EMPTY slot takes an ARMED entry with admission due, owned by the
sending port, its generation advancing once, and the command answers the slot and that generation. While the clock is INVALID the
admission stays due; while a sweep has yet to visit the slot it is left to the visit; otherwise it is made at once, and where no
occurrence is open it only clears admission due. Nothing else changes (R20, R51, R74). -/
def Obligations.AddEntryTakesLowestSlot : Prop :=
  ∀ (s : State) (p : Port) (tag : Byte) (payload : List Byte) (defn : Definition) (i : SlotNo),
    s.asks p .addEntry tag payload → s.tableFree = true → readDescriptor payload = some defn →
    (s.slot i).entry = none → (∀ j : SlotNo, j.val < i.val → (s.slot j).entry ≠ none) →
    ∃ e : Entry,
      e = { defn := defn, owner := p, state := .armed, remBudget := defn.budget, held := false, stamp := none,
            interrupted := false, final := false, endDue := none, remSeconds := 0, admissionDue := true,
            rejoin := false } ∧
      (s.clock.valid = false ∨ (∃ m cursor, s.engine.work = .sweep m cursor ∧ cursor ≤ i.val) →
        exec (.addEntry p) s =
          .next
            (State.answered { s with table := s.table.set i { gen := (s.slot i).gen + 1, entry := some e } } p tag
              (Reply.ok [byteOf i.val, (s.slot i).gen + 1]))) ∧
      (s.clock.valid = true → s.engine.work = .idle ∨ (∃ m cursor, s.engine.work = .sweep m cursor ∧ i.val < cursor) →
        e.admissible s.dates s.clock.date s.clock.now = none → defn.budget ≠ some 0 →
        exec (.addEntry p) s =
          .next
            (State.answered
              { s with
                table := s.table.set i { gen := (s.slot i).gen + 1, entry := some { e with admissionDue := false } } } p
              tag (Reply.ok [byteOf i.val, (s.slot i).gen + 1])))

/-- ADD_ENTRY while the clock is VALID and no work is in flight, of an entry whose occurrence is open: a SPAN whose window
of today, or of yesterday when today's is not open, holds the present minute, or an EVENT that starts at it, on a day of its
classes and within its validity. The entry is activated in the same command, its claim placed as far as its channel's list keeps
it; its generation has then advanced twice (R44, R50, R51, R97, R101). -/
def Obligations.AddEntryJoinsOpenWindow : Prop :=
  ∀ (s : State) (p : Port) (tag : Byte) (payload : List Byte) (defn : Definition) (i : SlotNo) (d : Date),
    s.asks p .addEntry tag payload → s.tableFree = true → readDescriptor payload = some defn →
    (s.slot i).entry = none → (∀ j : SlotNo, j.val < i.val → (s.slot j).entry ≠ none) →
    s.clock.valid = true → s.engine.work = .idle →
    (match defn.kind with
      | .span stop =>
        defn.startsOn s.dates s.clock.date d = true ∧ inWindow d defn.start stop s.clock.now = true ∧
          (d = s.clock.date ∨
            d = s.clock.date.previous ∧
              ¬(defn.startsOn s.dates s.clock.date s.clock.date = true ∧
                inWindow s.clock.date defn.start stop s.clock.now = true))
      | .event _ =>
        d = s.clock.date ∧ defn.start = s.clock.now.time ∧ defn.startsToday s.dates d = true) →
    ∃ u v : State,
      v = { s with table := s.table.set i { gen := (s.slot i).gen + 1, entry := some (newEntry defn p) } } ∧
        v.activates u i (newEntry defn p) d ∧ u.engine = s.engine ∧
        exec (.addEntry p) s = .next (u.answered p tag (Reply.ok [byteOf i.val, (s.slot i).gen + 2]))

/-- MODIFY_ENTRY by what its descriptor changes. An equal descriptor changes nothing. In-place fields alone advance the generation
once and leave the occurrence running; the claim of an ACTIVE held entry takes the new priority and action and keeps its
placement order; a SPENT entry left with autofree is freed in a second step, with its notices, unless its SPENT cause waits to be
taken (R80). A timing change re-arms the entry (a SUSPENDED one stays SUSPENDED) with a full budget, no stamp and admission due; an
occurrence that was running ends early, its claim leaving the list and ENDED raised if the new notify names it; the admission of an
entry that is now ARMED follows as R51 says. The command answers the generation and the state it leaves (R77 to R80). -/
def Obligations.ModifyEntryByDifference : Prop :=
  ∀ (s : State) (p : Port) (tag : Byte) (payload : List Byte) (i : SlotNo) (e : Entry) (defn : Definition),
    s.asks p .modifyEntry tag payload → s.tableFree = true → readModify payload = some (i, (s.slot i).gen, defn) →
    (s.slot i).entry = some e → s.mayChange p i = true →
    (defn = e.defn →
      exec (.modifyEntry p) s = .next (s.answered p tag (Reply.ok [(s.slot i).gen, e.state.code]))) ∧
    (defn ≠ e.defn → defn.sameTiming e.defn = true → e.held = false → (e.state ≠ .spent ∨ defn.autofree = false) →
      exec (.modifyEntry p) s =
        .next
          (State.answered
            { s with table := s.table.set i { gen := (s.slot i).gen + 1, entry := some { e with defn := defn } } } p tag
            (Reply.ok [(s.slot i).gen + 1, e.state.code]))) ∧
    (∀ k : Claim, defn ≠ e.defn → defn.sameTiming e.defn = true → e.state = .active → e.held = true →
      claimOf (s.list e.defn.channel) (.entry i) = some k →
      ∃ u : State,
        exec (.modifyEntry p) s = .next (u.answered p tag (Reply.ok [(s.slot i).gen + 1, EntryState.active.code])) ∧
          u.slot i = { gen := (s.slot i).gen + 1, entry := some { e with defn := defn } } ∧
          (∀ x : Claim, x ∈ u.list e.defn.channel ↔
            x = { k with priority := defn.priority, action := defn.action } ∨
              x ∈ s.list e.defn.channel ∧ x.source ≠ .entry i) ∧
          s.followsList u e.defn.channel ∧ s.onlySlot u i ∧ u.attention = s.attention ∧
          s.onlyChannel u e.defn.channel ∧ s.evaluationOnly u ∧ u.engine = s.engine) ∧
    (defn ≠ e.defn → defn.sameTiming e.defn = false → e.state ≠ .active → e.held = false → s.clock.valid = false →
      exec (.modifyEntry p) s =
        .next
          (State.answered
            { s with
              table :=
                s.table.set i
                  { gen := (s.slot i).gen + 1
                    entry :=
                      some
                        { defn := defn, owner := e.owner, state := if e.state = .suspended then .suspended else .armed,
                          remBudget := defn.budget, held := false, stamp := none, interrupted := false, final := false,
                          endDue := none, remSeconds := 0, admissionDue := true, rejoin := false } } } p tag
            (Reply.ok
              [(s.slot i).gen + 1, if e.state = .suspended then EntryState.suspended.code else EntryState.armed.code]))) ∧
    (defn ≠ e.defn → defn.sameTiming e.defn = true → e.state = .spent → e.held = false → defn.autofree = true →
      (s.attention.entryNotices[i] &&& EntryCause.spent.bit ≠ 0 →
        exec (.modifyEntry p) s =
          .next
            (State.answered
              { s with table := s.table.set i { gen := (s.slot i).gen + 1, entry := some { e with defn := defn } } } p tag
              (Reply.ok [(s.slot i).gen + 1, EntryState.spent.code]))) ∧
      (s.attention.entryNotices[i] &&& EntryCause.spent.bit = 0 →
        ∃ u : State, exec (.modifyEntry p) s = .next (u.answered p tag (Reply.ok [(s.slot i).gen + 2, 0])) ∧
          u = { s with
            table := s.table.set i { gen := (s.slot i).gen + 2, entry := none }
            attention :=
              { s.attention with
                entryNotices := s.attention.entryNotices.set i 0, pulse := u.attention.pulse } })) ∧
    (defn ≠ e.defn → defn.sameTiming e.defn = false →
      ∃ (v u : State) (armed : Entry),
        armed =
          { defn := defn, owner := e.owner, state := if e.state = .suspended then .suspended else .armed,
            remBudget := defn.budget, held := false, stamp := none, interrupted := false, final := false, endDue := none,
            remSeconds := 0, admissionDue := true, rejoin := false } ∧
        v.slot i = { gen := (s.slot i).gen + 1, entry := some armed } ∧
        v.attention.entryNotices[i] =
          (if e.state = .active then s.attention.entryNotices[i] ||| (defn.notify &&& EntryCause.ended.bit)
          else s.attention.entryNotices[i]) ∧
        s.withdraws v i e ∧ s.onlySlot v i ∧ s.onlyChannel v e.defn.channel ∧ s.evaluationOnly v ∧ v.engine = s.engine ∧
        (e.state = .suspended → u = v) ∧ (e.state ≠ .suspended → v.admissionFollows u i armed) ∧
        exec (.modifyEntry p) s = .next (u.answered p tag (Reply.ok [(u.slot i).gen, (u.slot i).stateCode])))

/-- SUSPEND_ENTRY, RESUME_ENTRY and DELETE_ENTRY with a good handle from a port that may change the entry. Suspending an ARMED entry
clears admission due; suspending an ACTIVE one ends its occurrence early with ENDED and marks it interrupted. Resuming arms it
with admission due and the rejoin flag of the command, which stay while the clock is INVALID; otherwise the admission follows as
R51 says. Deleting empties the slot, takes its
claim out of the list and its notices out of the set. Each advances the generation once and answers it (R81 to R83, R85). -/
def Obligations.HandleCommands : Prop :=
  ∀ (s : State) (p : Port) (tag : Byte) (i : SlotNo) (e : Entry), s.tableFree = true → (s.slot i).entry = some e →
    s.mayChange p i = true →
    (s.asks p .suspendEntry tag [byteOf i.val, (s.slot i).gen] → e.state = .armed →
      exec (.suspendEntry p) s =
        .next
          (State.answered
            { s with
              table :=
                s.table.set i
                  { gen := (s.slot i).gen + 1
                    entry := some { e with state := .suspended, admissionDue := false, rejoin := false } } } p tag
            (Reply.ok [(s.slot i).gen + 1]))) ∧
    (s.asks p .suspendEntry tag [byteOf i.val, (s.slot i).gen] → e.state = .active →
      ∃ u : State, exec (.suspendEntry p) s = .next (u.answered p tag (Reply.ok [(s.slot i).gen + 1])) ∧
        u.slot i =
          { gen := (s.slot i).gen + 1, entry := some { e.ended .suspended with interrupted := true } } ∧
        u.attention.entryNotices[i] = s.attention.entryNotices[i] ||| (e.defn.notify &&& EntryCause.ended.bit) ∧
        s.withdraws u i e ∧ s.onlySlot u i ∧ s.onlyChannel u e.defn.channel ∧ s.evaluationOnly u ∧
        u.engine = s.engine) ∧
    (∀ rejoin : Bool, s.asks p .resumeEntry tag [byteOf i.val, (s.slot i).gen, if rejoin then 1 else 0] →
      e.state = .suspended → s.clock.valid = false →
      exec (.resumeEntry p) s =
        .next
          (State.answered
            { s with
              table :=
                s.table.set i
                  { gen := (s.slot i).gen + 1
                    entry := some { e with state := .armed, admissionDue := true, rejoin := rejoin } } } p tag
            (Reply.ok [(s.slot i).gen + 1]))) ∧
    (∀ rejoin : Bool, s.asks p .resumeEntry tag [byteOf i.val, (s.slot i).gen, if rejoin then 1 else 0] →
      e.state = .suspended →
      ∃ (v u : State) (armed : Entry), armed = { e with state := .armed, admissionDue := true, rejoin := rejoin } ∧
        v = { s with table := s.table.set i { gen := (s.slot i).gen + 1, entry := some armed } } ∧
        v.admissionFollows u i armed ∧
        exec (.resumeEntry p) s = .next (u.answered p tag (Reply.ok [(u.slot i).gen]))) ∧
    (s.asks p .deleteEntry tag [byteOf i.val, (s.slot i).gen] →
      ∃ u : State, exec (.deleteEntry p) s = .next (u.answered p tag (Reply.ok [(s.slot i).gen + 1])) ∧
        u.slot i = { gen := (s.slot i).gen + 1, entry := none } ∧ u.attention.entryNotices[i] = 0 ∧
        s.withdraws u i e ∧ s.onlySlot u i ∧ s.onlyChannel u e.defn.channel ∧ s.evaluationOnly u ∧
        u.engine = s.engine)

/-- RESUME_ENTRY with the rejoin flag on an interrupted SPAN, the clock VALID and no work in flight, at a minute that lies in the
window its stamp names: the entry is ACTIVE again for the same occurrence, with no budget spent, its stamp kept, its end due at
the window's close and its claim placed as far as the list keeps it; STARTED is not raised (R52, R83, R97, R101). -/
def Obligations.ResumeRejoinsOccurrence : Prop :=
  ∀ (s : State) (p : Port) (tag : Byte) (i : SlotNo) (e : Entry) (stop : DayMinute) (m : Minute), s.tableFree = true →
    (s.slot i).entry = some e → s.mayChange p i = true → s.asks p .resumeEntry tag [byteOf i.val, (s.slot i).gen, 1] →
    e.state = .suspended → e.defn.kind = .span stop → e.stamp = some m → e.interrupted = true → s.clock.valid = true →
    s.engine.work = .idle → inWindow m.date m.time stop s.clock.now = true →
    ∃ u : State, exec (.resumeEntry p) s = .next (u.answered p tag (Reply.ok [(s.slot i).gen + 2])) ∧
      s.placesEntry u i ((s.slot i).gen + 2)
        { e with
          state := .active, interrupted := false, admissionDue := false, rejoin := false
          endDue := some { date := if stop.ofDay < m.time.ofDay then m.date.next else m.date, time := stop } } 0 ∧
      u.engine = s.engine

/-- The rows of a WIPE_TABLE. Taken, it holds the table with its cursor at slot 0 while its request stays PENDING. A slot step
empties the slot at the cursor, its generation advancing once, or passes an EMPTY one over, and moves the cursor on. When the
cursor has passed every slot the wipe completes and answers OK; a resync that was requested in the meantime then starts, and
otherwise a noted boundary starts a sweep for the clock's minute (R65, R88). The table commands that waited are then taken in the
order of the ports that the row names, each as its own row would take it; a port with no table command waiting is passed over
(R71, R90; that the row names the ports is notes/assumptions/7.md). -/
def Obligations.WipeRows : Prop :=
  (∀ (s : State) (p : Port) (tag : Byte), s.asks p .wipeTable tag [] → s.allows p .others = true → s.tableFree = true →
    exec (.wipeTable p) s = .next { s with engine := { s.engine with wipe := some { port := p, cursor := 0 } } }) ∧
  (∀ (s : State) (w : Wipe) (i : SlotNo), s.running = true → s.engine.wipe = some w → w.cursor = i.val →
    ((s.slot i).entry = none →
      exec .wipeSlot s =
        .next { s with engine := { s.engine with wipe := some { w with cursor := w.cursor + 1 } } }) ∧
    ∀ e, (s.slot i).entry = some e →
      ∃ t, exec .wipeSlot s = .next t ∧ t.slot i = { gen := (s.slot i).gen + 1, entry := none } ∧
        t.attention.entryNotices[i] = 0 ∧ s.withdraws t i e ∧ s.onlySlot t i ∧ s.onlyChannel t e.defn.channel ∧
        s.evaluationOnly t ∧ t.engine = { s.engine with wipe := some { w with cursor := w.cursor + 1 } }) ∧
  (∀ (s : State) (w : Wipe) (takes : List Port) (p : Port), s.running = true → s.engine.wipe = some w → 256 ≤ w.cursor →
    ∃ u t, exec (.wipeComplete takes) s = .next u ∧ exec (.wipeComplete (takes ++ [p])) s = .next t ∧ u.taking p t) ∧
  ∀ (s : State) (w : Wipe) (r : Request), s.running = true → s.engine.wipe = some w → 256 ≤ w.cursor →
    (s.port w.port).slot = .pending r →
    exec (.wipeComplete []) s =
      .next
        (State.answered
            { s with
              engine :=
                { s.engine with
                  wipe := none
                  resyncRequested := false
                  work :=
                    if s.engine.resyncRequested then
                      .resync s.clock.moment (skippedInterval s.engine.lastEvaluated s.clock.moment) 0
                    else if s.engine.boundaryNoted ∧ s.engine.work.inFlight = false then .sweep s.clock.now 0
                    else s.engine.work
                  boundaryNoted :=
                    s.engine.boundaryNoted && (s.engine.resyncRequested || s.engine.work.inFlight) } }
          w.port r.tag (Reply.ok []))

/-! ### The commands: channels and inputs -/

/-- A placement on a sound list (R94 to R97, R103). The list stays sound, which with its members says what it is. Before an entry's
claim is placed the UNTIL_EDGE claims leave, and a claim of the newcomer's own source leaves; `rest` are the claims that stay. With
room beside them the newcomer joins them and nothing is pushed out. Beside eight, the newcomer is not kept when its priority is
below that of every one of them, and the list is as it was; otherwise the last of the eight is pushed out, and the rest stay, but
for the UNTIL_EDGE claims when the one pushed out is an entry's. A claim that is kept stands above every claim of no higher
priority. -/
def Obligations.PlacementKeepsOrder : Prop :=
  ∀ (l : List Claim) (c : Claim), ListSound l →
    ListSound (placeInList l c).list ∧
      (l.length < Config.claimCapacity →
        placeInList l c = { list := insertNewest l c, kept := true, displaced := none }) ∧
      ∃ (rest : List Claim) (k : Claim),
        rest = l.filter (fun d =>
          decide (d.source ≠ c.source ∧ (isEntrySource c.source = true → d.lifetime ≠ .untilEdge))) ∧
        k = { c with order := k.order } ∧ (∀ d ∈ l, d.order < k.order) ∧
        (rest.length < Config.claimCapacity →
          (placeInList l c).kept = true ∧ (placeInList l c).displaced = none ∧
            ∀ d, d ∈ (placeInList l c).list ↔ d = k ∨ d ∈ rest) ∧
        (∀ last, rest.length = Config.claimCapacity → rest.getLast? = some last →
          (c.priority < last.priority → placeInList l c = { list := l, kept := false, displaced := none }) ∧
          (last.priority ≤ c.priority →
            (placeInList l c).kept = true ∧ (placeInList l c).displaced = some last ∧
              ∀ d, d ∈ (placeInList l c).list ↔
                d = k ∨ d ∈ rest ∧ d ≠ last ∧ (isEntrySource last.source = true → d.lifetime ≠ .untilEdge))) ∧
        ((placeInList l c).kept = true →
          ∀ d ∈ (placeInList l c).list, d ≠ k → d.priority ≤ c.priority → k.standsBefore d = true)

/-- FORCE_CHANNEL where the clock is VALID. A claim that the list does not keep is answered FULL and nothing changes (R105).
Otherwise the port's claim joins the list in its place, an old claim of that port leaving it, and the command answers the claim's
place and the number of claims; the output stage takes a new top when no sweep or resync is in flight. A claim that is pushed out
is an entry's, which loses held and raises DISPLACED for its slot, or an input's or port's, which raises DISPLACED for the channel;
nothing else changes (R95 to R97, R101, R106, R109, R116). -/
def Obligations.ForceChannelPlaces : Prop :=
  ∀ (s : State) (p : Port) (tag : Byte) (payload : List Byte) (f : Force), s.asks p .forceChannel tag payload →
    s.allows p .force = true → readForce payload = some f → s.clock.valid = true →
    ((placeInList (s.list f.channel) (f.claim p)).kept = false →
      exec (.forceChannel p) s = .next (s.answered p tag (Reply.refusal .full))) ∧
    ((placeInList (s.list f.channel) (f.claim p)).kept = true →
      ∃ (u : State) (place : Nat) (k : Claim),
        exec (.forceChannel p) s =
            .next (u.answered p tag (Reply.ok [byteOf place, byteOf (u.list f.channel).length])) ∧
          (u.list f.channel)[place]? = some k ∧ k.source = .port p ∧ k.priority = f.priority ∧ k.action = f.action ∧
          k.lifetime = f.lifetime ∧ s.placesClaim u f.channel (f.claim p)) ∧
    ((s.list f.channel).length < Config.claimCapacity →
      ∃ u : State,
        exec (.forceChannel p) s =
            .next
              (u.answered p tag
                (Reply.ok
                  [byteOf (placeOf (u.list f.channel) (.port p)), byteOf (u.list f.channel).length])) ∧
          u.list f.channel = insertNewest (s.list f.channel) (f.claim p) ∧ s.followsList u f.channel ∧
          s.onlyChannel u f.channel ∧ u = { s with arbiter := u.arbiter, channels := u.channels })

/-- The claims that leave by their own source: RELEASE_CHANNEL takes out the sending port's claim and answers the number of claims
left (R107), and TIMED_EXPIRY takes out a claim whose remaining seconds have reached 0 (R102). The other claims keep their order;
the output stage takes a new top when no sweep or resync is in flight; no notice is raised and nothing else changes (R98). A
timer that has not run out does not expire. -/
def Obligations.ClaimsLeave : Prop :=
  (∀ (s : State) (p : Port) (tag : Byte) (c : Chan) (k : Claim), s.asks p .releaseChannel tag [byteOf c.val] →
    s.allows p .force = true → claimOf (s.list c) (.port p) = some k →
    ∃ u : State,
      exec (.releaseChannel p) s = .next (u.answered p tag (Reply.ok [byteOf (u.list c).length])) ∧
        u.list c = (s.list c).filter (fun d => decide (d.source ≠ .port p)) ∧ s.followsList u c ∧ s.onlyChannel u c ∧
        u = { s with arbiter := u.arbiter, channels := u.channels }) ∧
  ∀ (s : State) (c : Chan) (source : Source) (k : Claim) (minutes remaining : Nat), s.running = true →
    source.mayBeTimed = true → claimOf (s.list c) source = some k → k.lifetime = .timed minutes remaining →
    (0 < remaining → exec (.timedExpiry c source) s = .next s) ∧
    (remaining = 0 →
      ∃ t, exec (.timedExpiry c source) s = .next t ∧
        t.list c = (s.list c).filter (fun d => decide (d.source ≠ source)) ∧ s.followsList t c ∧ s.onlyChannel t c ∧
        t = { s with arbiter := t.arbiter, channels := t.channels })

/-- CONFIGURE_CHANNEL stores the seven settings and sets the channel by its state: clearing enabled disables it, setting it on a
DISABLED channel applies the target and starts the guard, a FAULTED channel stays so on the new fallback, and a channel in
service keeps its action and timers with its proof restarted, but for a new fallback action where no top claim stands, which is
taken as a new target. The command answers the channel's state; nothing else changes (R113, R114, R119, R125). -/
def Obligations.ConfigureChannelByState : Prop :=
  ∀ (s : State) (p : Port) (tag : Byte) (payload : List Byte) (c : Chan) (cfg : ChannelConfig),
    s.asks p .configureChannel tag payload → s.allows p .config = true → readChannelConfig payload = some (c, cfg) →
    ∃ run : ChannelRun,
      exec (.configureChannel p) s =
          .next
            (State.answered { s with configs := s.configs.set c cfg, channels := s.channels.set c run } p tag
              (Reply.ok [run.state.code])) ∧
        (cfg.enabled = false → run = ChannelRun.retired cfg .disabled .idle) ∧
        (cfg.enabled = true → (s.channel c).state = .disabled →
          run = ChannelRun.fresh cfg none (targetOf cfg (s.lastTop c))) ∧
        (cfg.enabled = true → (s.channel c).state = .faulted → run = ChannelRun.retired cfg .faulted .fault) ∧
        (cfg.enabled = true → (s.channel c).state = .normal ∨ (s.channel c).state = .guarding →
          ∃ kept : ChannelRun,
            kept =
              (if s.lastTop c = none ∧ cfg.fallbackOn ≠ (s.config c).fallbackOn then
                (s.channel c).told cfg (if cfg.fallbackOn then .on else .off)
              else s.channel c) ∧
            run =
              { kept with
                proof := if proofApplies cfg .normal kept.commanded then .settling else .idle
                proofTicks := if proofApplies cfg .normal kept.commanded then cfg.proofTime.toNat else 0 })

/-- CLEAR_FAULT on a FAULTED channel: the target becomes the commanded action at once with the waveform at its beginning, the
proof restarts and the guard starts when its time is not 0; the command answers the state, and the notice and everything else
stay (R130). -/
def Obligations.ClearFaultReturnsToService : Prop :=
  ∀ (s : State) (p : Port) (tag : Byte) (c : Chan), s.asks p .clearFault tag [byteOf c.val] →
    s.allows p .force = true → (s.channel c).state = .faulted →
    exec (.clearFault p) s =
      .next
        (State.answered
          { s with
            channels := s.channels.set c (ChannelRun.fresh (s.config c) none (targetOf (s.config c) (s.lastTop c))) } p tag
          (Reply.ok [if (s.config c).guardTime = 0 then ChannelState.normal.code else ChannelState.guarding.code]))

/-- BIND_INPUT: the input's claims leave every list, the binding is stored, and a running debounce timer starts again with the new
time (R136). The model's choice (notes/assumptions/5.md): a debounce timer that has counted its last tick is not started again,
where R136 by its letter starts every running one; its expiry stays due, and is taken under the new binding. The stable level, the
latches and everything else stay, but for the reports of the lists (R135, R136). -/
def Obligations.BindInputReplaces : Prop :=
  ∀ (s : State) (p : Port) (tag : Byte) (payload : List Byte) (k : InputNo) (b : Binding),
    s.asks p .bindInput tag payload → s.allows p .config = true → readBindInput payload = some (k, b) →
    ∃ u : State, exec (.bindInput p) s = .next (u.answered p tag (Reply.ok [])) ∧
      u.binding k = b ∧
      u.input k = { s.input k with
        debounceLeft :=
          if (s.input k).debounceLeft = none then none
          else if (s.input k).debounceLeft = some 0 then some 0
          else some b.debounce.toNat } ∧
      (∀ c : Chan, u.list c = (s.list c).filter (fun d => decide (d.source ≠ .input k))) ∧
      (∀ c : Chan, s.followsList u c) ∧
      (∀ j : InputNo, j ≠ k → u.binding j = s.binding j ∧ u.input j = s.input j) ∧
      u = { s with arbiter := u.arbiter, channels := u.channels, bindings := u.bindings, inputs := u.inputs }

/-! ### The commands: attention and the panel policy -/

/-- NEXT_CAUSE answers the enabled and pending group of the highest level, the first of ENTRY, CHANNEL, INPUT, CLOCK, PORT among
equals, or 0 when none asserts, and the set of pending groups, enabled or not; it changes nothing else (R173, R206). -/
def Obligations.NextCauseSelects : Prop :=
  ∀ (s : State) (p : Port) (tag : Byte), s.asks p .nextCause tag [] →
    ∃ code set : Byte, exec (.nextCause p) s = .next (s.answered p tag (Reply.ok [code, set])) ∧
      (∀ g : Group, set.getLsbD g.index.val = s.groupPending g) ∧ set.toNat < 32 ∧
      (code = 0 ∧ (∀ g : Group, s.groupAsserts g = false) ∨
        ∃ g : Group, code = g.code ∧ s.groupAsserts g = true ∧
          ∀ h : Group, s.groupAsserts h = true →
            s.attention.groups[h.index].level < s.attention.groups[g.index].level ∨
              s.attention.groups[h.index].level = s.attention.groups[g.index].level ∧ g.index.val ≤ h.index.val)

/-- The commands that take notices and acknowledge causes. NEXT_ENTRY_NOTICE answers the lowest slot in the entry notice set with
its causes, generation and state, takes it out, and frees an autofree entry that is SPENT with that cause; it answers zeros when
the set is empty (R167). TAKE_CHANNEL_NOTICE takes the lowest channel with its causes (R168). TAKE_INPUT_EVENTS answers and clears
the sixteen latches (R169). ACK_CLOCK clears the causes named and answers them before and after (R170). Nothing else changes but
IRQN with the groups. -/
def Obligations.NoticesAreTaken : Prop :=
  (∀ (s : State) (p : Port) (tag : Byte), s.asks p .nextEntryNotice tag [] →
    ((∀ i : SlotNo, s.attention.entryNotices[i] = 0) →
      exec (.nextEntryNotice p) s = .next (s.answered p tag (Reply.ok [0, 0, 0, 0, 0]))) ∧
    ∀ i : SlotNo, s.attention.entryNotices[i] ≠ 0 → (∀ j : SlotNo, j.val < i.val → s.attention.entryNotices[j] = 0) →
      ∃ u : State,
        u = { s with
          table := u.table
          attention :=
            { s.attention with entryNotices := s.attention.entryNotices.set i 0, pulse := u.attention.pulse } } ∧
        exec (.nextEntryNotice p) s =
          .next
            (u.answered p tag
              (Reply.ok
                [1, byteOf i.val, byteOf (s.attention.entryNotices[i]).toNat, (u.slot i).gen, (u.slot i).stateCode])) ∧
        ((∃ e, (s.slot i).entry = some e ∧ e.state = .spent ∧ e.defn.autofree = true ∧
            s.attention.entryNotices[i] &&& EntryCause.spent.bit ≠ 0) →
          u.table = s.table.set i { gen := (s.slot i).gen + 1, entry := none }) ∧
        ((∀ e, (s.slot i).entry = some e → e.state ≠ .spent ∨ e.defn.autofree = false ∨
            s.attention.entryNotices[i] &&& EntryCause.spent.bit = 0) → u.table = s.table)) ∧
  (∀ (s : State) (p : Port) (tag : Byte), s.asks p .takeChannelNotice tag [] →
    ((∀ c : Chan, s.attention.channelNotices[c] = 0) →
      exec (.takeChannelNotice p) s = .next (s.answered p tag (Reply.ok [0, 0, 0]))) ∧
    ∀ c : Chan, s.attention.channelNotices[c] ≠ 0 → (∀ d : Chan, d.val < c.val → s.attention.channelNotices[d] = 0) →
      ∃ u : State,
        u = { s with
          attention :=
            { s.attention with channelNotices := s.attention.channelNotices.set c 0, pulse := u.attention.pulse } } ∧
        exec (.takeChannelNotice p) s =
          .next
            (u.answered p tag (Reply.ok [1, byteOf c.val, byteOf (s.attention.channelNotices[c]).toNat]))) ∧
  (∀ (s : State) (p : Port) (tag : Byte), s.asks p .takeInputEvents tag [] →
    ∃ u : State,
      u = { s with inputs := u.inputs, attention := { s.attention with pulse := u.attention.pulse } } ∧
      (∀ k : InputNo, u.input k = { s.input k with pressSeen := false, releaseSeen := false }) ∧
      exec (.takeInputEvents p) s =
        .next
          (u.answered p tag
            (Reply.ok
              (s.inputs.toList.map fun r => flagBit r.pressSeen 0 ||| flagBit r.releaseSeen 1 ||| flagBit r.stable 2)))) ∧
  ∀ (s : State) (p : Port) (tag : Byte) (tick invalid : Bool),
    s.asks p .ackClock tag [flagBit tick 0 ||| flagBit invalid 1] →
    ∃ u : State,
      u = { s with
        attention :=
          { s.attention with
            tickCause := s.attention.tickCause && !tick
            invalidCause := s.attention.invalidCause && !invalid
            pulse := u.attention.pulse } } ∧
      exec (.ackClock p) s =
        .next
          (u.answered p tag
            (Reply.ok
              [flagBit s.attention.tickCause 0 ||| flagBit s.attention.invalidCause 1,
                flagBit u.attention.tickCause 0 ||| flagBit u.attention.invalidCause 1]))

/-- CONFIGURE_ATTENTION stores the enables, levels, mode and tick period. In LEVEL mode IRQN is then asserted exactly while some
group is enabled and pending. In PULSE mode a group that the command made enabled while pending gives a pulse (R172, R174, R175).
The end of a pulse releases IRQN in PULSE mode and changes nothing else (R175). In every state of a part that runs, IRQN in LEVEL
mode is asserted exactly while some group is enabled and pending; in PULSE mode every command but the end of the pulse keeps a pulse
that is being driven, and one that leaves a group asserting that did not assert before, as when a cause arrives in an enabled group,
gives a pulse (R174, R175). -/
def Obligations.AttentionDrivesIrqn : Prop :=
  (∀ (s : State) (p : Port) (tag : Byte) (payload : List Byte) (cfg : AttentionConfig),
    s.asks p .configureAttention tag payload → s.allows p .config = true → readAttentionConfig payload = some cfg →
    ∃ u : State, exec (.configureAttention p) s = .next (u.answered p tag (Reply.ok [])) ∧
      u = { s with
        attention :=
          { s.attention with
            groups := cfg.groups, irqMode := cfg.irqMode, tickPeriod := cfg.tickPeriod, pulse := u.attention.pulse } } ∧
      (cfg.irqMode = .level →
        u.attention.pulse = false ∧
          (u.irqAsserted = true ↔ ∃ g : Group, cfg.groups[g.index].enabled = true ∧ s.groupPending g = true)) ∧
      (cfg.irqMode = .pulse →
        (u.irqAsserted = true ↔
          s.attention.pulse = true ∨
            ∃ g : Group, cfg.groups[g.index].enabled = true ∧ s.groupPending g = true ∧
              s.attention.groups[g.index].enabled = false))) ∧
  ∀ s : State, s.running = true →
    exec .irqnPulseEnd s = .next { s with attention := { s.attention with pulse := false } } ∧
      (s.attention.irqMode = .pulse →
        State.irqAsserted { s with attention := { s.attention with pulse := false } } = false) ∧
      (s.attention.irqMode = .level →
        (s.irqAsserted = true ↔
          ∃ g : Group, s.attention.groups[g.index].enabled = true ∧ s.groupPending g = true)) ∧
      ∀ (c : Instr) (t : State), exec c s = .next t → c ≠ .irqnPulseEnd → t.running = true →
        s.attention.irqMode = .pulse → t.attention.irqMode = .pulse →
        (s.irqAsserted = true → t.irqAsserted = true) ∧
          ∀ g : Group, s.groupAsserts g = false → t.groupAsserts g = true → t.irqAsserted = true

/-- SET_PANEL_POLICY: sent by the panel port it is refused DENIED; a payload of the wrong length, or a subset naming anything other
than the four permissions, is refused BADARG; otherwise the policy becomes the subset given and the command answers OK with the
policy before and after. It is taken in every state in which the part runs, whatever the clock, a sweep, a resync or a wipe
(R200). -/
def Obligations.SetPanelPolicyReplaces : Prop :=
  (∀ (s : State) (tag : Byte) (payload : List Byte), s.asks .panel .setPanelPolicy tag payload →
    exec (.setPanelPolicy .panel) s = .next (s.answered .panel tag (Reply.refusal .denied))) ∧
  (∀ (s : State) (tag : Byte) (payload : List Byte), s.asks .main .setPanelPolicy tag payload →
    (payload.length ≠ 1 ∨ ∃ b ∈ payload, 15 < b.toNat) →
    exec (.setPanelPolicy .main) s = .next (s.answered .main tag (Reply.refusal .badArg))) ∧
  ∀ (s : State) (tag b : Byte), s.asks .main .setPanelPolicy tag [b] → b.toNat ≤ 15 →
    exec (.setPanelPolicy .main) s =
      .next
        (State.answered { s with policy := BitVec.ofNat 4 b.toNat } .main tag
          (Reply.ok [byteOf s.policy.toNat, b]))

/-! ### Seconds, sweeps and resyncs -/

/-- SECOND_BOUNDARY, when the divider of a RUNNING timebase has completed a second; it restarts the divider. While the part runs,
every EVENT that counts and every TIMED claim counts one second down to 0; a VALID clock advances one second with its carries, and
a carry out of the seconds is a minute boundary, which starts a sweep or is noted, after a date change when the date is carried;
TICK follows its period (R48, R102, R151, R152, R162). On backup supply and in a main reset a VALID clock alone advances (R179,
R181). While the second is not complete, as after a SET_CLOCK or SNAP_MINUTE that has restarted the divider, and outside RUNNING,
there is no second boundary and the row does nothing (R149, R159, R160, R161; notes/assumptions/2.md and 5.md). Nothing else
changes. -/
def Obligations.SecondBoundaryCounts : Prop :=
  (∀ s : State, s.running = true → s.timebase.state = .running → 100 ≤ s.timebase.subSecond →
    ∃ t, exec .secondBoundary s = .next t ∧
      t = { s with
        timebase := { s.timebase with subSecond := 0 }
        table := t.table
        arbiter := { s.arbiter with lists := t.arbiter.lists }
        clock := t.clock
        dates := t.dates
        engine := t.engine
        attention := { s.attention with tickCause := t.attention.tickCause, pulse := t.attention.pulse } } ∧
      (∀ i : SlotNo, (t.slot i).gen = (s.slot i).gen ∧ ((s.slot i).entry = none → (t.slot i).entry = none)) ∧
      (∀ (i : SlotNo) (e : Entry), (s.slot i).entry = some e →
        (t.slot i).entry =
          if e.state = .active ∧ e.defn.kind.isEvent = true ∧ e.interrupted = false then
            some { e with remSeconds := e.remSeconds - 1 }
          else some e) ∧
      (∀ c : Chan, t.list c = (s.list c).map fun k =>
        match k.lifetime with
        | .timed minutes remaining => { k with lifetime := .timed minutes (remaining - 1) }
        | _ => k) ∧
      (s.clock.valid = false →
        t.clock = s.clock ∧ t.dates = s.dates ∧ t.engine = s.engine ∧ t.attention = s.attention) ∧
      (s.clock.valid = true → s.clock.second < 59 →
        t.clock = { s.clock with second := s.clock.second + 1 } ∧ t.dates = s.dates ∧ t.engine = s.engine ∧
          t.attention.tickCause = (s.attention.tickCause || decide (s.attention.tickPeriod = .second))) ∧
      (s.clock.valid = true → 59 ≤ s.clock.second →
        t.clock =
            (if s.clock.minute < 59 then { s.clock with minute := s.clock.minute + 1, second := 0 }
            else if s.clock.hour < 23 then { s.clock with hour := s.clock.hour + 1, minute := 0, second := 0 }
            else { s.clock with date := s.clock.date.next, hour := 0, minute := 0, second := 0 }) ∧
          (s.clock.minute < 59 ∨ s.clock.hour < 23 → t.dates = s.dates) ∧
          (59 ≤ s.clock.minute → 23 ≤ s.clock.hour →
            t.dates.records = s.dates.records.filter (fun r => !r.date.before t.clock.date) ∧
              t.dates.today = dayClassOf t.dates.records t.clock.date) ∧
          t.engine =
            (if s.engine.work.inFlight ∨ s.engine.wipe.isSome then { s.engine with boundaryNoted := true }
            else { s.engine with work := .sweep t.clock.now 0, boundaryNoted := false }) ∧
          t.attention.tickCause =
            (s.attention.tickCause ||
              match s.attention.tickPeriod with
              | .off => false
              | .second => true
              | .minute => true
              | .hour => decide (t.clock.minute = 0)
              | .day => decide (t.clock.hour = 0 ∧ t.clock.minute = 0)))) ∧
  (∀ s : State, s.supply = .backup ∨ s.supply = .normal ∧ s.inReset = true → s.timebase.state = .running →
    100 ≤ s.timebase.subSecond →
    exec .secondBoundary s =
      .next
        { s with
          timebase := { s.timebase with subSecond := 0 }
          clock := if s.clock.valid then s.clock.advanceSecond else s.clock }) ∧
  ∀ s : State, s.timebase.state ≠ .running ∨ s.timebase.subSecond < 100 → exec .secondBoundary s = .next s

/-- The sweep's visit to a slot that is not ACTIVE, at the minute m. An EMPTY, SUSPENDED or SPENT slot is passed over. An ARMED
entry whose until date has passed at midnight becomes SPENT with that cause, and is freed where autofree says so (R42, R46). An
ARMED entry with admission due is admitted at m in place of the start check (R41, R50). Any other becomes SPENT with no budget left
(R8, R44); it is activated when m is its start, today's class as it stands is in its day set, the sweep's date is within its
validity and its stamp does not name that start, and left as it is when m is not its start, or the class, the validity or the stamp
fails (R16, R28, R44). The claim is placed as far as the list keeps it: one that a full list does not keep leaves held false and
raises DISPLACED, and one that pushes another out displaces it (R97, R101). The cursor moves on (R41). -/
def Obligations.SweepVisitStarts : Prop :=
  ∀ (s : State) (m : Minute) (i : SlotNo), s.running = true → s.engine.wipe = none → s.engine.work = .sweep m i.val →
    ((∀ e, (s.slot i).entry = some e → e.state = .suspended ∨ e.state = .spent) →
      exec .sweepVisit s = .next { s with engine := { s.engine with work := .sweep m (i.val + 1) } }) ∧
    ∀ e, (s.slot i).entry = some e → e.state = .armed →
      ∃ t, exec .sweepVisit s = .next t ∧ t.engine = { s.engine with work := .sweep m (i.val + 1) } ∧
        (m.time = { hour := 0, minute := 0 } → e.defn.pastUntil m.date = true → s.spends t i e) ∧
        (m.time ≠ { hour := 0, minute := 0 } ∨ e.defn.pastUntil m.date = false →
          (e.admissionDue = true → s.admits t i e m) ∧
          (e.admissionDue = false → e.remBudget = some 0 → s.spends t i e) ∧
          (e.admissionDue = false → e.remBudget ≠ some 0 →
            (e.defn.start ≠ m.time ∨ e.defn.matchesClass s.dates.today = false ∨
                e.defn.validOn m.date = false ∨ e.stamp = some { date := m.date, time := e.defn.start } →
              t = { s with engine := { s.engine with work := .sweep m (i.val + 1) } }) ∧
            (e.defn.start = m.time → e.defn.matchesClass s.dates.today = true → e.defn.validOn m.date = true →
              e.stamp ≠ some { date := m.date, time := e.defn.start } → s.activates t i e m.date)))

/-- The ends of occurrences. At the 00:00 sweep the visit to an ACTIVE entry whose until date has passed first sets final (R42). The
visit then ends an ACTIVE SPAN whose end is due at the sweep minute, and leaves any other ACTIVE entry running (R43).
EVENT_COUNTDOWN_END ends an ACTIVE EVENT that is not restart-pending and has counted down to 0, and does nothing before that
(R48). The entry is ARMED, or SPENT when no budget is left or final is set (R45); a SPENT entry with autofree whose notify lacks
SPENT is freed at once (R46). -/
def Obligations.OccurrencesEnd : Prop :=
  (∀ (s : State) (m : Minute) (i : SlotNo) (e f : Entry), s.running = true → s.engine.wipe = none →
    s.engine.work = .sweep m i.val → (s.slot i).entry = some e → e.state = .active →
    f = { e with final := e.final || decide (m.time = { hour := 0, minute := 0 }) && e.defn.pastUntil m.date } →
    (∀ stop, e.defn.kind = .span stop → e.endDue = some m →
      ∃ t, exec .sweepVisit s = .next t ∧ s.endsOccurrence t i f ∧
        t.engine = { s.engine with work := .sweep m (i.val + 1) }) ∧
    ((∃ duration, e.defn.kind = .event duration) ∨ e.endDue ≠ some m →
      exec .sweepVisit s =
        .next
          { s with
            table := s.table.set i { gen := (s.slot i).gen, entry := some f }
            engine := { s.engine with work := .sweep m (i.val + 1) } })) ∧
  ∀ (s : State) (i : SlotNo) (e : Entry) (duration : Nat), s.running = true → (s.slot i).entry = some e →
    e.state = .active → e.defn.kind = .event duration → e.interrupted = false →
    (0 < e.remSeconds → exec (.eventCountdownEnd i) s = .next s) ∧
    (e.remSeconds = 0 →
      ∃ t, exec (.eventCountdownEnd i) s = .next t ∧ s.endsOccurrence t i e ∧ t.engine = s.engine)

/-- The resync's visit at its captured time T. An EMPTY, SUSPENDED or SPENT slot is passed over. An ACTIVE entry past its until date
has become final, and an ARMED one becomes SPENT (R55). An ACTIVE SPAN inside its stamped window stays, no longer interrupted and
with its generation as it was, and its claim is placed again if it was not held; outside that window its occurrence ends (R56). An
ACTIVE EVENT stays unless it is restart-pending; then its occurrence ends (R57). An entry that ends and is ARMED is visited on as
an ARMED entry (R55). An ARMED SPAN rejoins its stamped window; failing that, and with budget left, it is activated for the open
window that holds T, or raises MISSED when its whole window of T's date was skipped (R58, R60). An ARMED EVENT that qualifies on
T's date, by today's class as it stands (R28), is activated when it starts at T's minute; when its start was skipped it is activated
if it catches up and raises MISSED otherwise (R59). With no budget left an ARMED entry that does not rejoin becomes SPENT. A claim is
placed as far as its list keeps it, with its displacement (R56, R97, R101). The visit clears admission due, and the cursor moves on
(R55). That a SPAN's window is judged by the class of its own start day is notes/assumptions/23.md. -/
def Obligations.ResyncVisitCatchesUp : Prop :=
  ∀ (s : State) (T : Moment) (skipped : Skipped) (i : SlotNo), s.running = true →
    s.engine.work = .resync T skipped i.val →
    ((∀ e, (s.slot i).entry = some e → e.state = .suspended ∨ e.state = .spent) →
      exec .resyncVisit s = .next { s with engine := { s.engine with work := .resync T skipped (i.val + 1) } }) ∧
    (∀ e f : Entry, (s.slot i).entry = some e → e.state = .active →
      f = { e with final := e.final || e.defn.pastUntil T.date } →
      (∀ (stop : DayMinute) (m : Minute), e.defn.kind = .span stop → e.stamp = some m →
        inWindow m.date m.time stop T.minuteOf = true →
        (e.held = true →
          exec .resyncVisit s =
            .next
              { s with
                table := s.table.set i { gen := (s.slot i).gen, entry := some { f with interrupted := false } }
                engine := { s.engine with work := .resync T skipped (i.val + 1) } }) ∧
        (e.held = false →
          ∃ t, exec .resyncVisit s = .next t ∧ s.placesEntry t i (s.slot i).gen { f with interrupted := false } 0 ∧
            t.engine = { s.engine with work := .resync T skipped (i.val + 1) })) ∧
      (∀ duration, e.defn.kind = .event duration → e.interrupted = false →
        exec .resyncVisit s =
          .next
            { s with
              table := s.table.set i { gen := (s.slot i).gen, entry := some f }
              engine := { s.engine with work := .resync T skipped (i.val + 1) } }) ∧
      ((∃ stop m, e.defn.kind = .span stop ∧ e.stamp = some m ∧ inWindow m.date m.time stop T.minuteOf = false) ∨
          (∃ duration, e.defn.kind = .event duration) ∧ e.interrupted = true →
        ∃ v t, s.endsOccurrence v i f ∧ v.engine = s.engine ∧ exec .resyncVisit s = .next t ∧
          (f.remBudget = some 0 ∨ f.final = true →
            t = { v with engine := { s.engine with work := .resync T skipped (i.val + 1) } }) ∧
          (f.remBudget ≠ some 0 → f.final = false → exec .resyncVisit v = .next t))) ∧
    ∀ e, (s.slot i).entry = some e → e.state = .armed →
      ∃ t, exec .resyncVisit s = .next t ∧ t.engine = { s.engine with work := .resync T skipped (i.val + 1) } ∧
        (e.defn.pastUntil T.date = true → s.spends t i e.visited) ∧
        (e.defn.pastUntil T.date = false →
          (∀ close, e.rejoinWindow T.minuteOf = some close → s.rejoins t i e close) ∧
          (e.rejoinWindow T.minuteOf = none → e.remBudget = some 0 → s.spends t i e.visited) ∧
          (e.rejoinWindow T.minuteOf = none → e.remBudget ≠ some 0 →
            (∀ stop, e.defn.kind = .span stop →
              (∀ d, e.defn.openWindow stop e.stamp s.dates s.clock.date T.minuteOf = some d →
                s.activates t i e d) ∧
              (e.defn.openWindow stop e.stamp s.dates s.clock.date T.minuteOf = none →
                (e.defn.start.ofDay ≤ stop.ofDay ∧ e.defn.startsOn s.dates s.clock.date T.date = true ∧
                    e.stamp ≠ some { date := T.date, time := e.defn.start } ∧ skipped.covers e.defn.start = true ∧
                    skipped.covers stop = true →
                  s.misses t i e) ∧
                (stop.ofDay < e.defn.start.ofDay ∨ e.defn.startsOn s.dates s.clock.date T.date = false ∨
                    e.stamp = some { date := T.date, time := e.defn.start } ∨ skipped.covers e.defn.start = false ∨
                    skipped.covers stop = false →
                  s.passesBy t i e))) ∧
            ∀ duration, e.defn.kind = .event duration →
              (e.defn.startsToday s.dates T.date = false ∨
                  e.stamp = some { date := T.date, time := e.defn.start } ∨
                  e.defn.start ≠ T.time ∧ skipped.covers e.defn.start = false →
                s.passesBy t i e) ∧
              (e.defn.startsToday s.dates T.date = true →
                e.stamp ≠ some { date := T.date, time := e.defn.start } →
                (e.defn.start = T.time ∨ skipped.covers e.defn.start = true ∧ e.defn.catchUp = true →
                  s.activates t i e T.date) ∧
                (e.defn.start ≠ T.time → skipped.covers e.defn.start = true → e.defn.catchUp = false →
                  s.misses t i e))))

/-- The completions of a sweep and of a resync. The minute, or T's minute, is the last evaluated one, the channels recorded in the
batch have their tops reported as they stand, the record is cleared, and a noted boundary starts a sweep for the clock's present
minute (R47, R62, R68). Before the cursor has passed every slot nothing completes. The table commands that waited during the
resync are then taken in the order of the ports that the row names, each as its own row would take it; a port with no table command
waiting is passed over (R62, R63, R71, R90; that the row names the ports is notes/assumptions/7.md). -/
def Obligations.WorkCompletes : Prop :=
  (∀ (s : State) (i : Instr) (m : Minute) (cursor : Nat), s.running = true →
    (i = .sweepComplete ∧ s.engine.work = .sweep m cursor ∧ s.engine.wipe = none ∨
      i = .resyncComplete [] ∧ ∃ T skipped, s.engine.work = .resync T skipped cursor ∧ m = { date := T.date, time := T.time }) →
    (cursor < 256 → exec i s = .next s) ∧
    (256 ≤ cursor →
      ∃ t, exec i s = .next t ∧
        t = { s with engine := t.engine, arbiter := t.arbiter, channels := t.channels } ∧
        t.engine =
          { s.engine with
            work := if s.engine.boundaryNoted then .sweep s.clock.now 0 else .idle
            boundaryNoted := false
            lastEvaluated := some m } ∧
        ∀ c : Chan, t.list c = s.list c ∧ t.arbiter.changed[c] = false ∧
          (s.arbiter.changed[c] = true →
            t.lastTop c = topOf (s.list c) ∧
              t.channel c = (s.channel c).told (s.config c) (targetOf (s.config c) (topOf (s.list c)))) ∧
          (s.arbiter.changed[c] = false → t.lastTop c = s.lastTop c ∧ t.channel c = s.channel c))) ∧
  ∀ (s : State) (T : Moment) (skipped : Skipped) (cursor : Nat) (takes : List Port) (p : Port), s.running = true →
    s.engine.work = .resync T skipped cursor → 256 ≤ cursor →
    ∃ u t, exec (.resyncComplete takes) s = .next u ∧ exec (.resyncComplete (takes ++ [p])) s = .next t ∧ u.taking p t

/-! ### Timers and pins -/

/-- The timers of a channel that the part drives; each expires at its last tick, and a row that comes before does nothing (R121).
GUARD_EXPIRY: a pending action that differs from the commanded action becomes it and the guard starts again with the time then
configured, otherwise the channel becomes NORMAL with no pending action (R118). PULSE_PHASE_END: an on phase is followed by the
off phase; the end of an off phase completes a cycle, after which a burst of 0 starts the on phase again, and a finite burst
counts the cycle and rests when the count reaches the burst (R123). That a burst of 0 leaves the count of cycles at 0 is the
model's choice (notes/assumptions/12.md). Nothing else changes. The level of the CH pin, in every channel state while the supply
is NORMAL: ON and the on phase of a PULSE give the active level, OFF, the off phase and a resting burst the inactive one, where
ACTIVE_HIGH makes the active level high and ACTIVE_LOW low; on backup supply and in COLD the pin is not driven (R122). -/
def Obligations.ChannelTimersExpire : Prop :=
  (∀ (s : State) (c : Chan), s.supply = .normal →
    ((s.channel c).commanded = .on → s.chPin c = some (if (s.config c).activeLow then false else true)) ∧
    ((s.channel c).commanded = .off → s.chPin c = some (if (s.config c).activeLow then true else false)) ∧
    ∀ shape : Shape, (s.channel c).commanded = .pulse shape →
      ((s.channel c).wave = .onPhase → s.chPin c = some (if (s.config c).activeLow then false else true)) ∧
      ((s.channel c).wave = .offPhase ∨ (s.channel c).wave = .resting →
        s.chPin c = some (if (s.config c).activeLow then true else false))) ∧
  (∀ (s : State) (c : Chan), s.supply ≠ .normal → s.chPin c = none) ∧
  ∀ (s : State) (c : Chan), s.running = true →
    ((s.channel c).state = .guarding → (s.channel c).guard = 0 →
      (∀ a : Action, (s.channel c).pending = some a → a ≠ (s.channel c).commanded →
        exec (.guardExpiry c) s =
          .next { s with channels := s.channels.set c (ChannelRun.fresh (s.config c) none a) }) ∧
      ((s.channel c).pending = none ∨ (s.channel c).pending = some (s.channel c).commanded →
        exec (.guardExpiry c) s =
          .next { s with channels := s.channels.set c { s.channel c with state := .normal, pending := none } })) ∧
    ((s.channel c).state ≠ .guarding ∨ 0 < (s.channel c).guard → exec (.guardExpiry c) s = .next s) ∧
    ((s.channel c).wave = .steady ∨ (s.channel c).wave = .resting ∨ 0 < (s.channel c).phaseTicks →
      exec (.pulsePhaseEnd c) s = .next s) ∧
    ∀ shape : Shape, (s.channel c).commanded = .pulse shape → (s.channel c).phaseTicks = 0 →
      ((s.channel c).wave = .onPhase →
        exec (.pulsePhaseEnd c) s =
          .next
            { s with
              channels :=
                s.channels.set c { s.channel c with wave := .offPhase, phaseTicks := shape.offWidth.toNat } }) ∧
      ((s.channel c).wave = .offPhase → shape.burst = 0 →
        exec (.pulsePhaseEnd c) s =
          .next
            { s with
              channels := s.channels.set c { s.channel c with wave := .onPhase, phaseTicks := shape.onWidth.toNat } }) ∧
      ((s.channel c).wave = .offPhase → shape.burst ≠ 0 →
        exec (.pulsePhaseEnd c) s =
          .next
            { s with
              channels :=
                s.channels.set c
                  { s.channel c with
                    cycles := (s.channel c).cycles + 1
                    wave := if (s.channel c).cycles + 1 = shape.burst then .resting else .onPhase
                    phaseTicks :=
                      if (s.channel c).cycles + 1 = shape.burst then 0 else shape.onWidth.toNat } })

/-- The proof monitor. The sense shows the load on when its pin is high, or low with INVERTED_SENSE; ON expects it on and OFF
off. PROOF_TIMER_EXPIRY at the timer's last tick in SETTLING or DISAGREE enters AGREE when the sense shows the expected state;
otherwise the channel is FAULTED with its fallback action at once, the guard idle, no pending action, and FAULT joins its channel
notices. With ticks left, as after a restart, or outside these two states no expiry happens (R121, R126 to R129). SENSE_CHANGE
leaves AGREE for DISAGREE with the full proof time when the expected state is left, returns to AGREE when it is shown again, and
outside these, and with the expected state still shown or still absent, is only the pin's new level (R126, R127). While the part
does not run the pin is not watched (R133, R179). -/
def Obligations.ProofMonitorJudges : Prop :=
  (∀ (s : State) (c : Chan), s.running = true → (s.channel c).proof = .settling ∨ (s.channel c).proof = .disagree →
    (s.channel c).proofTicks = 0 →
    ((s.pins.senses[c] != (s.config c).invertedSense) = decide ((s.channel c).commanded = .on) →
      exec (.proofTimerExpiry c) s =
        .next { s with channels := s.channels.set c { s.channel c with proof := .agree } }) ∧
    ((s.pins.senses[c] != (s.config c).invertedSense) ≠ decide ((s.channel c).commanded = .on) →
      ∃ t, exec (.proofTimerExpiry c) s = .next t ∧
        t = { s with
          channels := s.channels.set c (ChannelRun.retired (s.config c) .faulted .fault)
          attention :=
            { s.attention with
              channelNotices :=
                s.attention.channelNotices.set c (s.attention.channelNotices[c] ||| ChannelCause.fault.bit)
              pulse := t.attention.pulse } })) ∧
  (∀ (s : State) (c : Chan),
    (s.channel c).proof ≠ .settling ∧ (s.channel c).proof ≠ .disagree ∨ 0 < (s.channel c).proofTicks →
    exec (.proofTimerExpiry c) s = .next s) ∧
  (∀ (s : State) (c : Chan) (high : Bool), s.running = false →
    exec (.senseChange c high) s = .next { s with pins := { s.pins with senses := s.pins.senses.set c high } }) ∧
  ∀ (s : State) (c : Chan) (high : Bool), s.running = true →
    exec (.senseChange c high) s =
      .next
        { s with
          pins := { s.pins with senses := s.pins.senses.set c high }
          channels :=
            s.channels.set c
              (if (s.channel c).proof = .agree ∧
                  (high != (s.config c).invertedSense) ≠ decide ((s.channel c).commanded = .on) then
                { s.channel c with proof := .disagree, proofTicks := (s.config c).proofTime.toNat }
              else if (s.channel c).proof = .disagree ∧
                  (high != (s.config c).invertedSense) = decide ((s.channel c).commanded = .on) then
                { s.channel c with proof := .agree, proofTicks := 0 }
              else s.channel c) }

/-- The inputs. INPUT_PIN_CHANGE starts the full debounce time when the pin departs from the stable level with the timer idle,
and stops the timer when it returns; while the part does not run the pin is not watched (R137, R179). DEBOUNCE_EXPIRY with ticks
left or no timer running does nothing; at the last tick it makes the pin level the stable level: a change to the active level is a
PRESS and one away from it a RELEASE, and each sets its latch (R137, R138). With the binding disabled or the clock INVALID it does
nothing more (R139). Otherwise, on each channel of the mask, a PRESS of a MOMENTARY or TIMED binding places the input's claim, one
of a TOGGLE or UNTIL_EDGE binding takes its standing claim out or places one where none stands, and a RELEASE takes out a MOMENTARY
claim and does nothing in another mode; the claim carries the binding's priority and action and its mode's lifetime (R139 to
R143). A placement on a full list has its displacement: DISPLACED for the channel when the input's claim is not kept or an
input's or port's is pushed out, and an entry pushed out loses held and raises DISPLACED (R97, R101). -/
def Obligations.InputsAreQualified : Prop :=
  (∀ (s : State) (k : InputNo) (high : Bool),
    (s.running = false →
      exec (.inputPinChange k high) s = .next { s with pins := { s.pins with inputs := s.pins.inputs.set k high } }) ∧
    (s.running = true →
      exec (.inputPinChange k high) s =
        .next
          { s with
            pins := { s.pins with inputs := s.pins.inputs.set k high }
            inputs :=
              s.inputs.set k
                (if high = (s.input k).stable then { s.input k with debounceLeft := none }
                else if (s.input k).debounceLeft = none then
                  { s.input k with debounceLeft := some (s.binding k).debounce.toNat }
                else s.input k) })) ∧
  (∀ (s : State) (k : InputNo), (s.input k).debounceLeft ≠ some 0 ∨ s.pins.inputs[k] = (s.input k).stable →
    exec (.debounceExpiry k) s = .next s) ∧
  ∀ (s : State) (k : InputNo), s.running = true → (s.input k).debounceLeft = some 0 →
    s.pins.inputs[k] ≠ (s.input k).stable →
    ∃ t press, exec (.debounceExpiry k) s = .next t ∧ press = (s.pins.inputs[k] != (s.binding k).lowActive) ∧
      t.input k =
        { stable := s.pins.inputs[k], debounceLeft := none, pressSeen := (s.input k).pressSeen || press,
          releaseSeen := (s.input k).releaseSeen || !press } ∧
      (∀ j : InputNo, j ≠ k → t.input j = s.input j) ∧
      ((s.binding k).enabled = false ∨ s.clock.valid = false →
        t = { s with inputs := t.inputs, attention := { s.attention with pulse := t.attention.pulse } }) ∧
      ((s.binding k).enabled = true → s.clock.valid = true →
        t = { s with
          inputs := t.inputs, table := t.table, arbiter := t.arbiter, channels := t.channels
          attention :=
            { s.attention with
              entryNotices := t.attention.entryNotices, channelNotices := t.attention.channelNotices
              pulse := t.attention.pulse } } ∧
        ∃ (claim : Claim) (act : Chan → InputAct),
          claim =
            { source := .input k, priority := (s.binding k).priority, action := (s.binding k).action
              lifetime :=
                match (s.binding k).mode with
                | .momentary => .momentary
                | .timed minutes => .timed minutes (minutes * 60)
                | .toggle => .latch
                | .untilEdge => .untilEdge
              order := 0 } ∧
          (∀ c : Chan,
            act c =
                (if (s.binding k).mask.getLsbD c.val then
                  (s.binding k).mode.act press (claimOf (s.list c) (.input k)).isSome
                else .keep) ∧
              (act c = .keep →
                t.list c = s.list c ∧ t.lastTop c = s.lastTop c ∧ t.channel c = s.channel c ∧
                  t.arbiter.changed[c] = s.arbiter.changed[c]) ∧
              (act c = .remove →
                t.list c = (s.list c).filter (fun d => decide (d.source ≠ .input k)) ∧ s.followsList t c) ∧
              (act c = .place → (placeInList (s.list c) claim).kept = true →
                t.list c = (placeInList (s.list c) claim).list ∧ s.followsList t c) ∧
              (act c = .place → (placeInList (s.list c) claim).kept = false →
                t.list c = s.list c ∧ t.lastTop c = s.lastTop c ∧ t.channel c = s.channel c ∧
                  t.arbiter.changed[c] = s.arbiter.changed[c]) ∧
              (act c = .place →
                (placeInList (s.list c) claim).kept = false ∨
                  (∃ src, isEntrySource src = false ∧ s.pushesOut c claim src) →
                t.attention.channelNotices[c] = s.attention.channelNotices[c] ||| ChannelCause.displaced.bit) ∧
              (act c ≠ .place ∨
                  (placeInList (s.list c) claim).kept = true ∧
                    (∀ src, isEntrySource src = false → ¬s.pushesOut c claim src) →
                t.attention.channelNotices[c] = s.attention.channelNotices[c])) ∧
          ∀ i : SlotNo,
            ((∃ c, act c = .place ∧ s.pushesOut c claim (.entry i)) → s.entryDisplaced t i) ∧
              ((∀ c, act c = .place → ¬s.pushesOut c claim (.entry i)) →
                t.slot i = s.slot i ∧ t.attention.entryNotices[i] = s.attention.entryNotices[i]))

/-! ### Crystal, reset and supply -/

/-- The crystal: a first edge takes the timebase from OFF or FAILED to STARTING, trusted edges take it from STARTING to RUNNING,
and a gap takes it from STARTING or RUNNING to FAILED (R148). A gap on main supply with the clock VALID makes the clock INVALID in
one step: every list is empty and reported so, every ACTIVE entry is ARMED with its generation advanced and its stamp and budget
kept, the engine's work is abandoned with its flags and its last evaluated minute, a wipe goes on, and INVALID is raised (R66,
R89, R110, R153). During a main reset the same happens but that the attention unit stays as it is, since the restart raises
INVALID (R176, R182): DEDUCED (notes/assumptions/14.md). On backup only the clock and the last evaluated minute are touched
(R154). -/
def Obligations.CrystalMovesTimebase : Prop :=
  (∀ s : State, s.supply ≠ .cold → s.timebase.state = .off ∨ s.timebase.state = .failed →
    exec .crystalEdge s = .next { s with timebase := { s.timebase with state := .starting } }) ∧
  (∀ s : State, s.supply ≠ .cold → s.timebase.state = .starting →
    exec .crystalTrusted s = .next { s with timebase := { s.timebase with state := .running } } ∧
      exec .crystalGap s = .next { s with timebase := { s.timebase with state := .failed } }) ∧
  (∀ s : State, s.supply ≠ .cold → s.timebase.state = .running → s.clock.valid = false →
    exec .crystalGap s = .next { s with timebase := { s.timebase with state := .failed } }) ∧
  (∀ s : State, s.supply = .backup → s.timebase.state = .running → s.clock.valid = true →
    exec .crystalGap s =
      .next
        { s with
          timebase := { s.timebase with state := .failed }
          clock := { s.clock with valid := false }
          engine := { s.engine with lastEvaluated := none } }) ∧
  ∀ s : State, s.supply = .normal → s.timebase.state = .running → s.clock.valid = true →
    ∃ t, exec .crystalGap s = .next t ∧
      t = { s with
        timebase := { s.timebase with state := .failed }
        clock := { s.clock with valid := false }
        engine :=
          { work := .idle, resyncRequested := false, boundaryNoted := false, lastEvaluated := none, wipe := s.engine.wipe }
        table := t.table
        arbiter := { t.arbiter with changed := Vector.replicate 24 false }
        channels := t.channels
        attention :=
          if s.inReset then s.attention
          else { s.attention with invalidCause := true, pulse := t.attention.pulse } } ∧
      (∀ c : Chan, t.list c = [] ∧ t.lastTop c = none ∧
        t.channel c = (s.channel c).told (s.config c) (if (s.config c).fallbackOn then .on else .off)) ∧
      (∀ i : SlotNo, (s.slot i).entry = none → t.slot i = s.slot i) ∧
      ∀ (i : SlotNo) (e : Entry), (s.slot i).entry = some e →
        (e.state ≠ .active → t.slot i = s.slot i) ∧
        (e.state = .active → t.slot i = { gen := (s.slot i).gen + 1, entry := some (e.ended .armed) })

/-- A main reset by RSTN. Its beginning keeps the backup domain (clock, timebase, table, records, settings, bindings, policy, last
evaluated minute) but for held, which is cleared on every ACTIVE entry; the lists are empty, each channel drives its fallback
action, the attention unit and the ports are reset (R25, R112, R133, R176, R181, R202). When RSTN rises the stable levels are the
pin levels and ADSEL gives the panel's address (R147, R195), today's class is computed afresh from the date the clock then holds
(R28), and the restart follows: with the clock INVALID, SPENT autofree entries are freed, ACTIVE entries are ARMED and INVALID is
raised (R182); with it VALID, past records are retired, SPENT autofree entries are freed, ACTIVE entries are restart-pending and a
resync starts (R183). -/
def Obligations.MainResetAndRestart : Prop :=
  (∀ s : State, s.running = true →
    ∃ t, exec .rstnLow s = .next t ∧ t.inReset = true ∧ t.supply = .normal ∧ t.pins = { s.pins with rstnLow := true } ∧
      t.clock = s.clock ∧ t.timebase = s.timebase ∧
      t.dates = { s.dates with today := dayClassOf s.dates.records s.clock.date } ∧ t.configs = s.configs ∧
      t.bindings = s.bindings ∧ t.policy = s.policy ∧ t.pending = s.pending ∧
      t.engine =
        { work := .idle, resyncRequested := false, boundaryNoted := false, lastEvaluated := s.engine.lastEvaluated,
          wipe := none } ∧
      (∀ c : Chan, t.list c = [] ∧ t.lastTop c = none ∧
        (t.channel c).commanded = (if (s.config c).fallbackOn then .on else .off) ∧
        (t.channel c).state = (if (s.config c).enabled then .normal else .disabled) ∧ (t.channel c).guard = 0 ∧
        (t.channel c).pending = none ∧ (t.channel c).wave = .steady) ∧
      t.attention = Attention.reset ∧ t.mainPort = PortState.reset ∧ t.panelPort = PortState.reset ∧
      t.panelBus.selection = none ∧
      (∀ i : SlotNo, (t.slot i).gen = (s.slot i).gen ∧ ((s.slot i).entry = none → (t.slot i).entry = none)) ∧
      ∀ (i : SlotNo) (e : Entry), (s.slot i).entry = some e →
        (t.slot i).entry = some (if e.state = .active then { e with held := false } else e)) ∧
  ∀ (s : State) (adsel : Bool), s.supply = .normal → s.inReset = true →
    ∃ t, exec (.mainResetEnd adsel) s = .next t ∧ t.running = true ∧ t.pins = { s.pins with rstnLow := false } ∧
      (∀ k : InputNo, t.input k =
        { stable := s.pins.inputs[k], debounceLeft := none, pressSeen := false, releaseSeen := false }) ∧
      t.panelBus = { s.panelBus with address := if adsel then 0x2D else 0x2C } ∧
      t = { s with
        inReset := false, pins := t.pins, inputs := t.inputs, panelBus := t.panelBus, table := t.table, dates := t.dates
        engine := t.engine
        attention := { s.attention with invalidCause := t.attention.invalidCause, pulse := t.attention.pulse } } ∧
      (∀ i : SlotNo, (s.slot i).entry = none → t.slot i = s.slot i) ∧
      (∀ (i : SlotNo) (e : Entry), (s.slot i).entry = some e →
        (e.state = .spent → e.defn.autofree = true → t.slot i = { gen := (s.slot i).gen + 1, entry := none }) ∧
        (e.state = .active →
          t.slot i =
            if s.clock.valid then { gen := (s.slot i).gen, entry := some { e with interrupted := true } }
            else { gen := (s.slot i).gen + 1, entry := some (e.ended .armed) }) ∧
        (e.state = .armed ∨ e.state = .suspended ∨ e.state = .spent ∧ e.defn.autofree = false → t.slot i = s.slot i)) ∧
      (s.clock.valid = false →
        t.attention.invalidCause = true ∧
          t.dates = { s.dates with today := dayClassOf s.dates.records s.clock.date } ∧ t.engine = s.engine) ∧
      (s.clock.valid = true → s.engine.wipe = none →
        t.attention = s.attention ∧
          t.dates.records = s.dates.records.filter (fun r => !r.date.before s.clock.date) ∧
          t.dates.today = dayClassOf t.dates.records s.clock.date ∧
          t.engine =
            { s.engine with
              work := .resync s.clock.moment (skippedInterval s.engine.lastEvaluated s.clock.moment) 0
              resyncRequested := false })

/-- The supplies. VMAIN_LOST with VBAK present is the switch-over to BACKUP, which keeps the whole backup domain as it stands;
without VBAK everything held is lost (R177, R178). VMAIN_RETURNS on backup begins a main reset, which RSTN held low keeps from
ending; otherwise the restart follows, which frees SPENT autofree entries, and with the clock INVALID arms ACTIVE entries, or with it
VALID marks them restart-pending, retires past records and starts a resync (R177, R181 to R183). VMAIN_RETURNS in COLD is a cold
start and then such a main reset and restart, whatever the pins: the state is State.reset but for what the pins give (R180 to
R182, R195). VBAK_APPEARS in COLD is a cold start into BACKUP, and VBAK_LOST on backup loses everything; while VMAIN is
present both are the pin alone (R177, R180). The model's choices: on backup supply and in COLD everything outside what is kept
stands at its reset or cold start value (notes/assumptions/13.md; the manual says that it is lost), and RSTN held low keeps the
part in the main reset when VMAIN returns (notes/assumptions/20.md). -/
def Obligations.SuppliesMoveTheState : Prop :=
  (∀ s : State, s.supply = .normal → s.pins.vbak = true →
    ∃ t, exec .vmainLost s = .next t ∧ t.supply = .backup ∧ t.clock = s.clock ∧ t.timebase = s.timebase ∧
      t.dates = s.dates ∧ t.table = s.table ∧ t.configs = s.configs ∧ t.bindings = s.bindings ∧ t.policy = s.policy ∧
      t.engine.lastEvaluated = s.engine.lastEvaluated ∧ t.engine.work = .idle ∧ t.engine.wipe = none ∧
      t.pins = s.pins ∧ t.pending = s.pending ∧ (∀ c : Chan, t.list c = [] ∧ t.chPin c = none) ∧
      t.mainPort = PortState.reset ∧ t.panelPort = PortState.reset ∧ t.irqAsserted = false) ∧
  (∀ s : State, (s.supply = .normal ∧ s.pins.vbak = false) ∨ s.supply = .backup →
    ∃ t, exec (if s.supply = .normal then .vmainLost else .vbakLost) s = .next t ∧ t.supply = .cold ∧
      (∀ i : SlotNo, t.slot i = { gen := 0, entry := none }) ∧ t.clock = Clock.cold ∧ t.timebase.state = .off ∧
      t.dates.records = [] ∧ (∀ c : Chan, t.config c = ChannelConfig.cold) ∧
      (∀ k : InputNo, t.binding k = Binding.cold) ∧ t.policy = 0 ∧ t.engine.lastEvaluated = none ∧
      t.pins.vbak = false ∧ t.pending = s.pending) ∧
  (∀ (s : State) (adsel : Bool), s.supply = .backup →
    ∃ t, exec (.vmainReturns adsel) s = .next t ∧ t.supply = .normal ∧ t.inReset = s.pins.rstnLow ∧ t.clock = s.clock ∧
      t.timebase = s.timebase ∧ t.configs = s.configs ∧ t.bindings = s.bindings ∧ t.policy = s.policy ∧ t.pins = s.pins ∧
      t.pending = s.pending ∧ (∀ c : Chan, t.list c = [] ∧ (t.chPin c).isSome = true) ∧
      t.dates.today = dayClassOf t.dates.records s.clock.date ∧
      (s.pins.rstnLow = true ∨ s.clock.valid = false → t.dates.records = s.dates.records ∧ t.engine.work = .idle) ∧
      (s.pins.rstnLow = false → s.clock.valid = false → t.attention.invalidCause = true) ∧
      (s.pins.rstnLow = false → s.clock.valid = true →
        t.dates.records = s.dates.records.filter (fun r => !r.date.before s.clock.date) ∧
          t.engine.work = .resync s.clock.moment (skippedInterval s.engine.lastEvaluated s.clock.moment) 0) ∧
      (∀ i : SlotNo, (s.slot i).entry = none → t.slot i = s.slot i) ∧
      ∀ (i : SlotNo) (e : Entry), (s.slot i).entry = some e →
        (s.pins.rstnLow = true →
          t.slot i =
            { gen := (s.slot i).gen, entry := some (if e.state = .active then { e with held := false } else e) }) ∧
        (s.pins.rstnLow = false →
          (e.state = .spent → e.defn.autofree = true → t.slot i = { gen := (s.slot i).gen + 1, entry := none }) ∧
          (e.state = .active →
            t.slot i =
              if s.clock.valid then
                { gen := (s.slot i).gen, entry := some { e with held := false, interrupted := true } }
              else { gen := (s.slot i).gen + 1, entry := some (e.ended .armed) }) ∧
          (e.state = .armed ∨ e.state = .suspended ∨ e.state = .spent ∧ e.defn.autofree = false →
            t.slot i = s.slot i))) ∧
  (∀ (s : State) (adsel : Bool), s.supply = .cold →
    ∃ t, exec (.vmainReturns adsel) s = .next t ∧
      t = { State.reset with
        inReset := s.pins.rstnLow, pins := s.pins, inputs := t.inputs, panelBus := t.panelBus, pending := s.pending
        attention := { Attention.reset with invalidCause := !s.pins.rstnLow } } ∧
      (∀ k : InputNo, t.input k =
        { stable := s.pins.inputs[k], debounceLeft := none, pressSeen := false, releaseSeen := false }) ∧
      t.panelBus.selection = none ∧
      (s.pins.rstnLow = false → t.panelBus.address = if adsel then 0x2D else 0x2C)) ∧
  (∀ s : State, s.supply = .cold →
    ∃ t, exec .vbakAppears s = .next t ∧ t.supply = .backup ∧ t.pins = { s.pins with vbak := true } ∧
      (∀ i : SlotNo, t.slot i = { gen := 0, entry := none }) ∧ t.clock = Clock.cold ∧ t.timebase.state = .off ∧
      t.dates.records = [] ∧ t.policy = 0 ∧ t.engine.lastEvaluated = none) ∧
  ∀ s : State, s.supply = .normal →
    exec .vbakAppears s = .next { s with pins := { s.pins with vbak := true } } ∧
      exec .vbakLost s = .next { s with pins := { s.pins with vbak := false } }

/-! ### Invariants: what every step keeps -/

/-- Every claim list keeps the form of R92 and R94: at most 8 claims, one of a source, by priority and then the later placed
first. -/
def Obligations.StepKeepsListsSound : Prop :=
  ∀ s t : State, s.ListsSound → step s = .next t → t.ListsSound

/-- The date set stays in ascending order, with at most 32 possible dates and no two of one date (R26), and a VALID clock has a
RUNNING timebase behind it (R148, R158). -/
def Obligations.StepKeepsDatesAndClockSound : Prop :=
  ∀ s t : State, s.DatesSound → s.ClockSound → step s = .next t → t.DatesSound ∧ t.ClockSound

/-- Every channel stays consistent with its settings: DISABLED exactly when not enabled, on its fallback action when out of
service, with the guard timer running only in GUARDING and the proof monitor at work only where proof applies (R115 to R119,
R123, R125). -/
def Obligations.StepKeepsChannelsSound : Prop :=
  ∀ s t : State, s.ChannelsSound → step s = .next t → t.ChannelsSound

/-- Every entry keeps its definition in the ranges of R2 to R11, its remaining budget within its budget (R8), and its occurrence
fields clear outside ACTIVE (R45). -/
def Obligations.StepKeepsEntriesSound : Prop :=
  ∀ s t : State, s.EntriesSound → step s = .next t → t.EntriesSound

/-- Only a slot that holds an entry has notices (R166). The model's choice (notes/assumptions/13.md): while the part does not run, on
backup supply and in COLD as in a main reset, everything outside the backup domain but the inputs stands at its reset value; of
main reset R67, R112, R133, R176 and R202 say so, and of the supplies that these values are not kept. -/
def Obligations.StepKeepsNoticesAndRestSound : Prop :=
  ∀ s t : State, s.NoticesSound → s.RestSound → step s = .next t → t.NoticesSound ∧ t.RestSound

/-- While the clock is INVALID and the part runs, the lists stay empty, no entry is ACTIVE, and the engine has no work and waits
for none (R20, R66, R110, R153). The premise RestSound rules out states that no run reaches; it is kept by every step too. -/
def Obligations.StepKeepsQuietWhileInvalid : Prop :=
  ∀ s t : State, s.RestSound → s.QuietSound → step s = .next t → t.QuietSound

/-- The claims and the entries keep agreeing: an entry's claim stands only while the entry is ACTIVE and held, in its own
channel's list with its priority and action, and held tells that it stands (R15, R100); claims carry only the lifetimes of their
source (R93). The premise ListsSound rules out lists with two claims of one source, which no run reaches; it is kept by every step
too (StepKeepsListsSound). -/
def Obligations.StepKeepsClaimsSound : Prop :=
  ∀ s t : State, s.ListsSound → s.ClaimsSound → step s = .next t → t.ClaimsSound

/-- While a wipe is in progress the slots it has passed stay EMPTY (R65, R71, R88), so that when it completes the whole table is
EMPTY. -/
def Obligations.StepKeepsWipedSlotsEmpty : Prop :=
  (∀ s t : State, s.WipeSound → step s = .next t → t.WipeSound) ∧
    ∀ (s t : State), s.WipeSound → s.running = true → (∃ w, s.engine.wipe = some w ∧ 256 ≤ w.cursor) →
      exec (.wipeComplete []) s = .next t → ∀ i : SlotNo, (t.slot i).entry = none
end

