-- ==== Sys2Proof/Laws/Dates.lean ====
section
/-! SUPPORT. The exception date set: what an insertion of a record does to a set of possible dates in ascending order (R26, R34). -/

namespace Sys2Proof.Machine

/-- Possible dates with one key are one date. -/
theorem Date.key_injective {d e : Date} (hd : d.possible = true) (he : e.possible = true) (h : d.key = e.key) : d = e := by
  have hm : ∀ y m, monthLength y m ≤ 31 := by
    intro y m
    unfold monthLength
    split <;> (try split) <;> omega
  have h1 := hm d.year d.month
  have h2 := hm e.year e.month
  obtain ⟨y, m, a⟩ := d
  obtain ⟨y', m', a'⟩ := e
  simp only [Date.possible, Date.key, decide_eq_true_eq, Date.mk.injEq] at *
  omega

/-- What an ADD_DATE makes of an ordered set: the new record and the others of other dates (R34). -/
theorem mem_insertRecord {r : DateRecord} {l : List DateRecord}
    (hs : l.Pairwise fun a b => a.date.before b.date = true) (x : DateRecord) :
    x ∈ insertRecord r l ↔ x = r ∨ x ∈ l ∧ x.date ≠ r.date := by
  induction l with
  | nil => simp [insertRecord]
  | cons q qs ih =>
    obtain ⟨hq, hqs⟩ := List.pairwise_cons.1 hs
    have hlt : ∀ y ∈ qs, y.date ≠ q.date := fun y hy he => by
      have := hq y hy
      rw [he] at this
      simp [Date.before] at this
    unfold insertRecord
    split
    · next h =>
      simp only [List.mem_cons]
      refine ⟨fun hx => hx.imp id fun hx => ⟨.inr hx, h ▸ hlt x hx⟩, ?_⟩
      rintro (hx | ⟨rfl | hx, hn⟩)
      · exact .inl hx
      · exact absurd h hn
      · exact .inr hx
    · next h =>
      split
      · next hb =>
        simp only [List.mem_cons]
        refine ⟨?_, ?_⟩
        · rintro (hx | rfl | hx)
          · exact .inl hx
          · exact .inr ⟨.inl rfl, h⟩
          · refine .inr ⟨.inr hx, fun he => ?_⟩
            have := hq x hx
            simp only [Date.before, decide_eq_true_eq, he] at this hb
            omega
        · rintro (hx | ⟨hx, -⟩)
          · exact .inl hx
          · exact .inr hx
      · simp only [List.mem_cons, ih hqs]
        constructor
        · rintro (rfl | hx | ⟨hx, hn⟩)
          · exact .inr ⟨.inl rfl, h⟩
          · exact .inl hx
          · exact .inr ⟨.inr hx, hn⟩
        · rintro (hx | ⟨rfl | hx, hn⟩)
          · exact .inr (.inl hx)
          · exact .inl rfl
          · exact .inr (.inr ⟨hx, hn⟩)

/-- An ADD_DATE of a possible date keeps a set of possible dates in order (R26, R34). -/
theorem insertRecord_ordered {r : DateRecord} {l : List DateRecord} (hr : r.date.possible = true)
    (hp : ∀ q ∈ l, q.date.possible = true) (hs : l.Pairwise fun a b => a.date.before b.date = true) :
    (insertRecord r l).Pairwise fun a b => a.date.before b.date = true := by
  induction l with
  | nil => simp [insertRecord]
  | cons q qs ih =>
    obtain ⟨hq, hqs⟩ := List.pairwise_cons.1 hs
    unfold insertRecord
    split
    · next h => exact List.pairwise_cons.2 ⟨fun y hy => h ▸ hq y hy, hqs⟩
    · next h =>
      split
      · next hb =>
        refine List.pairwise_cons.2 ⟨fun y hy => ?_, hs⟩
        rcases List.mem_cons.1 hy with rfl | hy
        · exact hb
        · have := hq y hy
          simp only [Date.before, decide_eq_true_eq] at this hb ⊢
          omega
      · next hb =>
        refine List.pairwise_cons.2 ⟨fun y hy => ?_, ih (fun z hz => hp z (List.mem_cons_of_mem _ hz)) hqs⟩
        rcases (mem_insertRecord hqs y).1 hy with rfl | ⟨hy, -⟩
        · have hne : q.date.key ≠ y.date.key := fun e => h (Date.key_injective (hp q (by simp)) hr e)
          simp only [Date.before, decide_eq_true_eq] at hb ⊢
          omega
        · exact hq y hy

end Sys2Proof.Machine
end

