-- ==== Sys2Proof/Laws/State.lean ====
section
/-! SUPPORT. The small lemmas of the state's updates: what each update leaves in each field, and what the accessors of the
indexed places read after an update of one of them. -/

namespace Sys2Proof.Machine

/-! ### `State.withSlot` -/

@[simp] theorem State.withSlot_supply (s : State) (i : SlotNo) (x : Slot) : (s.withSlot i x).supply = s.supply := rfl
@[simp] theorem State.withSlot_inReset (s : State) (i : SlotNo) (x : Slot) : (s.withSlot i x).inReset = s.inReset := rfl
@[simp] theorem State.withSlot_pins (s : State) (i : SlotNo) (x : Slot) : (s.withSlot i x).pins = s.pins := rfl
@[simp] theorem State.withSlot_timebase (s : State) (i : SlotNo) (x : Slot) : (s.withSlot i x).timebase = s.timebase := rfl
@[simp] theorem State.withSlot_clock (s : State) (i : SlotNo) (x : Slot) : (s.withSlot i x).clock = s.clock := rfl
@[simp] theorem State.withSlot_dates (s : State) (i : SlotNo) (x : Slot) : (s.withSlot i x).dates = s.dates := rfl
@[simp] theorem State.withSlot_table (s : State) (i : SlotNo) (x : Slot) : (s.withSlot i x).table = s.table.set i x := rfl
@[simp] theorem State.withSlot_engine (s : State) (i : SlotNo) (x : Slot) : (s.withSlot i x).engine = s.engine := rfl
@[simp] theorem State.withSlot_arbiter (s : State) (i : SlotNo) (x : Slot) : (s.withSlot i x).arbiter = s.arbiter := rfl
@[simp] theorem State.withSlot_configs (s : State) (i : SlotNo) (x : Slot) : (s.withSlot i x).configs = s.configs := rfl
@[simp] theorem State.withSlot_channels (s : State) (i : SlotNo) (x : Slot) : (s.withSlot i x).channels = s.channels := rfl
@[simp] theorem State.withSlot_bindings (s : State) (i : SlotNo) (x : Slot) : (s.withSlot i x).bindings = s.bindings := rfl
@[simp] theorem State.withSlot_inputs (s : State) (i : SlotNo) (x : Slot) : (s.withSlot i x).inputs = s.inputs := rfl
@[simp] theorem State.withSlot_attention (s : State) (i : SlotNo) (x : Slot) : (s.withSlot i x).attention = s.attention := rfl
@[simp] theorem State.withSlot_mainPort (s : State) (i : SlotNo) (x : Slot) : (s.withSlot i x).mainPort = s.mainPort := rfl
@[simp] theorem State.withSlot_panelPort (s : State) (i : SlotNo) (x : Slot) : (s.withSlot i x).panelPort = s.panelPort := rfl
@[simp] theorem State.withSlot_panelBus (s : State) (i : SlotNo) (x : Slot) : (s.withSlot i x).panelBus = s.panelBus := rfl
@[simp] theorem State.withSlot_policy (s : State) (i : SlotNo) (x : Slot) : (s.withSlot i x).policy = s.policy := rfl
@[simp] theorem State.withSlot_pending (s : State) (i : SlotNo) (x : Slot) : (s.withSlot i x).pending = s.pending := rfl

/-! ### `State.withTable` -/

@[simp] theorem State.withTable_supply (s : State) (x : Vector Slot 256) : (s.withTable x).supply = s.supply := rfl
@[simp] theorem State.withTable_inReset (s : State) (x : Vector Slot 256) : (s.withTable x).inReset = s.inReset := rfl
@[simp] theorem State.withTable_pins (s : State) (x : Vector Slot 256) : (s.withTable x).pins = s.pins := rfl
@[simp] theorem State.withTable_timebase (s : State) (x : Vector Slot 256) : (s.withTable x).timebase = s.timebase := rfl
@[simp] theorem State.withTable_clock (s : State) (x : Vector Slot 256) : (s.withTable x).clock = s.clock := rfl
@[simp] theorem State.withTable_dates (s : State) (x : Vector Slot 256) : (s.withTable x).dates = s.dates := rfl
@[simp] theorem State.withTable_table (s : State) (x : Vector Slot 256) : (s.withTable x).table = x := rfl
@[simp] theorem State.withTable_engine (s : State) (x : Vector Slot 256) : (s.withTable x).engine = s.engine := rfl
@[simp] theorem State.withTable_arbiter (s : State) (x : Vector Slot 256) : (s.withTable x).arbiter = s.arbiter := rfl
@[simp] theorem State.withTable_configs (s : State) (x : Vector Slot 256) : (s.withTable x).configs = s.configs := rfl
@[simp] theorem State.withTable_channels (s : State) (x : Vector Slot 256) : (s.withTable x).channels = s.channels := rfl
@[simp] theorem State.withTable_bindings (s : State) (x : Vector Slot 256) : (s.withTable x).bindings = s.bindings := rfl
@[simp] theorem State.withTable_inputs (s : State) (x : Vector Slot 256) : (s.withTable x).inputs = s.inputs := rfl
@[simp] theorem State.withTable_attention (s : State) (x : Vector Slot 256) : (s.withTable x).attention = s.attention := rfl
@[simp] theorem State.withTable_mainPort (s : State) (x : Vector Slot 256) : (s.withTable x).mainPort = s.mainPort := rfl
@[simp] theorem State.withTable_panelPort (s : State) (x : Vector Slot 256) : (s.withTable x).panelPort = s.panelPort := rfl
@[simp] theorem State.withTable_panelBus (s : State) (x : Vector Slot 256) : (s.withTable x).panelBus = s.panelBus := rfl
@[simp] theorem State.withTable_policy (s : State) (x : Vector Slot 256) : (s.withTable x).policy = s.policy := rfl
@[simp] theorem State.withTable_pending (s : State) (x : Vector Slot 256) : (s.withTable x).pending = s.pending := rfl

/-! ### `State.withEngine` -/

@[simp] theorem State.withEngine_supply (s : State) (x : Engine) : (s.withEngine x).supply = s.supply := rfl
@[simp] theorem State.withEngine_inReset (s : State) (x : Engine) : (s.withEngine x).inReset = s.inReset := rfl
@[simp] theorem State.withEngine_pins (s : State) (x : Engine) : (s.withEngine x).pins = s.pins := rfl
@[simp] theorem State.withEngine_timebase (s : State) (x : Engine) : (s.withEngine x).timebase = s.timebase := rfl
@[simp] theorem State.withEngine_clock (s : State) (x : Engine) : (s.withEngine x).clock = s.clock := rfl
@[simp] theorem State.withEngine_dates (s : State) (x : Engine) : (s.withEngine x).dates = s.dates := rfl
@[simp] theorem State.withEngine_table (s : State) (x : Engine) : (s.withEngine x).table = s.table := rfl
@[simp] theorem State.withEngine_engine (s : State) (x : Engine) : (s.withEngine x).engine = x := rfl
@[simp] theorem State.withEngine_arbiter (s : State) (x : Engine) : (s.withEngine x).arbiter = s.arbiter := rfl
@[simp] theorem State.withEngine_configs (s : State) (x : Engine) : (s.withEngine x).configs = s.configs := rfl
@[simp] theorem State.withEngine_channels (s : State) (x : Engine) : (s.withEngine x).channels = s.channels := rfl
@[simp] theorem State.withEngine_bindings (s : State) (x : Engine) : (s.withEngine x).bindings = s.bindings := rfl
@[simp] theorem State.withEngine_inputs (s : State) (x : Engine) : (s.withEngine x).inputs = s.inputs := rfl
@[simp] theorem State.withEngine_attention (s : State) (x : Engine) : (s.withEngine x).attention = s.attention := rfl
@[simp] theorem State.withEngine_mainPort (s : State) (x : Engine) : (s.withEngine x).mainPort = s.mainPort := rfl
@[simp] theorem State.withEngine_panelPort (s : State) (x : Engine) : (s.withEngine x).panelPort = s.panelPort := rfl
@[simp] theorem State.withEngine_panelBus (s : State) (x : Engine) : (s.withEngine x).panelBus = s.panelBus := rfl
@[simp] theorem State.withEngine_policy (s : State) (x : Engine) : (s.withEngine x).policy = s.policy := rfl
@[simp] theorem State.withEngine_pending (s : State) (x : Engine) : (s.withEngine x).pending = s.pending := rfl

/-! ### `State.withArbiter` -/

@[simp] theorem State.withArbiter_supply (s : State) (x : Arbiter) : (s.withArbiter x).supply = s.supply := rfl
@[simp] theorem State.withArbiter_inReset (s : State) (x : Arbiter) : (s.withArbiter x).inReset = s.inReset := rfl
@[simp] theorem State.withArbiter_pins (s : State) (x : Arbiter) : (s.withArbiter x).pins = s.pins := rfl
@[simp] theorem State.withArbiter_timebase (s : State) (x : Arbiter) : (s.withArbiter x).timebase = s.timebase := rfl
@[simp] theorem State.withArbiter_clock (s : State) (x : Arbiter) : (s.withArbiter x).clock = s.clock := rfl
@[simp] theorem State.withArbiter_dates (s : State) (x : Arbiter) : (s.withArbiter x).dates = s.dates := rfl
@[simp] theorem State.withArbiter_table (s : State) (x : Arbiter) : (s.withArbiter x).table = s.table := rfl
@[simp] theorem State.withArbiter_engine (s : State) (x : Arbiter) : (s.withArbiter x).engine = s.engine := rfl
@[simp] theorem State.withArbiter_arbiter (s : State) (x : Arbiter) : (s.withArbiter x).arbiter = x := rfl
@[simp] theorem State.withArbiter_configs (s : State) (x : Arbiter) : (s.withArbiter x).configs = s.configs := rfl
@[simp] theorem State.withArbiter_channels (s : State) (x : Arbiter) : (s.withArbiter x).channels = s.channels := rfl
@[simp] theorem State.withArbiter_bindings (s : State) (x : Arbiter) : (s.withArbiter x).bindings = s.bindings := rfl
@[simp] theorem State.withArbiter_inputs (s : State) (x : Arbiter) : (s.withArbiter x).inputs = s.inputs := rfl
@[simp] theorem State.withArbiter_attention (s : State) (x : Arbiter) : (s.withArbiter x).attention = s.attention := rfl
@[simp] theorem State.withArbiter_mainPort (s : State) (x : Arbiter) : (s.withArbiter x).mainPort = s.mainPort := rfl
@[simp] theorem State.withArbiter_panelPort (s : State) (x : Arbiter) : (s.withArbiter x).panelPort = s.panelPort := rfl
@[simp] theorem State.withArbiter_panelBus (s : State) (x : Arbiter) : (s.withArbiter x).panelBus = s.panelBus := rfl
@[simp] theorem State.withArbiter_policy (s : State) (x : Arbiter) : (s.withArbiter x).policy = s.policy := rfl
@[simp] theorem State.withArbiter_pending (s : State) (x : Arbiter) : (s.withArbiter x).pending = s.pending := rfl

/-! ### `State.withConfig` -/

@[simp] theorem State.withConfig_supply (s : State) (c : Chan) (x : ChannelConfig) : (s.withConfig c x).supply = s.supply := rfl
@[simp] theorem State.withConfig_inReset (s : State) (c : Chan) (x : ChannelConfig) : (s.withConfig c x).inReset = s.inReset := rfl
@[simp] theorem State.withConfig_pins (s : State) (c : Chan) (x : ChannelConfig) : (s.withConfig c x).pins = s.pins := rfl
@[simp] theorem State.withConfig_timebase (s : State) (c : Chan) (x : ChannelConfig) : (s.withConfig c x).timebase = s.timebase := rfl
@[simp] theorem State.withConfig_clock (s : State) (c : Chan) (x : ChannelConfig) : (s.withConfig c x).clock = s.clock := rfl
@[simp] theorem State.withConfig_dates (s : State) (c : Chan) (x : ChannelConfig) : (s.withConfig c x).dates = s.dates := rfl
@[simp] theorem State.withConfig_table (s : State) (c : Chan) (x : ChannelConfig) : (s.withConfig c x).table = s.table := rfl
@[simp] theorem State.withConfig_engine (s : State) (c : Chan) (x : ChannelConfig) : (s.withConfig c x).engine = s.engine := rfl
@[simp] theorem State.withConfig_arbiter (s : State) (c : Chan) (x : ChannelConfig) : (s.withConfig c x).arbiter = s.arbiter := rfl
@[simp] theorem State.withConfig_configs (s : State) (c : Chan) (x : ChannelConfig) : (s.withConfig c x).configs = s.configs.set c x := rfl
@[simp] theorem State.withConfig_channels (s : State) (c : Chan) (x : ChannelConfig) : (s.withConfig c x).channels = s.channels := rfl
@[simp] theorem State.withConfig_bindings (s : State) (c : Chan) (x : ChannelConfig) : (s.withConfig c x).bindings = s.bindings := rfl
@[simp] theorem State.withConfig_inputs (s : State) (c : Chan) (x : ChannelConfig) : (s.withConfig c x).inputs = s.inputs := rfl
@[simp] theorem State.withConfig_attention (s : State) (c : Chan) (x : ChannelConfig) : (s.withConfig c x).attention = s.attention := rfl
@[simp] theorem State.withConfig_mainPort (s : State) (c : Chan) (x : ChannelConfig) : (s.withConfig c x).mainPort = s.mainPort := rfl
@[simp] theorem State.withConfig_panelPort (s : State) (c : Chan) (x : ChannelConfig) : (s.withConfig c x).panelPort = s.panelPort := rfl
@[simp] theorem State.withConfig_panelBus (s : State) (c : Chan) (x : ChannelConfig) : (s.withConfig c x).panelBus = s.panelBus := rfl
@[simp] theorem State.withConfig_policy (s : State) (c : Chan) (x : ChannelConfig) : (s.withConfig c x).policy = s.policy := rfl
@[simp] theorem State.withConfig_pending (s : State) (c : Chan) (x : ChannelConfig) : (s.withConfig c x).pending = s.pending := rfl

/-! ### `State.withChannel` -/

@[simp] theorem State.withChannel_supply (s : State) (c : Chan) (x : ChannelRun) : (s.withChannel c x).supply = s.supply := rfl
@[simp] theorem State.withChannel_inReset (s : State) (c : Chan) (x : ChannelRun) : (s.withChannel c x).inReset = s.inReset := rfl
@[simp] theorem State.withChannel_pins (s : State) (c : Chan) (x : ChannelRun) : (s.withChannel c x).pins = s.pins := rfl
@[simp] theorem State.withChannel_timebase (s : State) (c : Chan) (x : ChannelRun) : (s.withChannel c x).timebase = s.timebase := rfl
@[simp] theorem State.withChannel_clock (s : State) (c : Chan) (x : ChannelRun) : (s.withChannel c x).clock = s.clock := rfl
@[simp] theorem State.withChannel_dates (s : State) (c : Chan) (x : ChannelRun) : (s.withChannel c x).dates = s.dates := rfl
@[simp] theorem State.withChannel_table (s : State) (c : Chan) (x : ChannelRun) : (s.withChannel c x).table = s.table := rfl
@[simp] theorem State.withChannel_engine (s : State) (c : Chan) (x : ChannelRun) : (s.withChannel c x).engine = s.engine := rfl
@[simp] theorem State.withChannel_arbiter (s : State) (c : Chan) (x : ChannelRun) : (s.withChannel c x).arbiter = s.arbiter := rfl
@[simp] theorem State.withChannel_configs (s : State) (c : Chan) (x : ChannelRun) : (s.withChannel c x).configs = s.configs := rfl
@[simp] theorem State.withChannel_channels (s : State) (c : Chan) (x : ChannelRun) : (s.withChannel c x).channels = s.channels.set c x := rfl
@[simp] theorem State.withChannel_bindings (s : State) (c : Chan) (x : ChannelRun) : (s.withChannel c x).bindings = s.bindings := rfl
@[simp] theorem State.withChannel_inputs (s : State) (c : Chan) (x : ChannelRun) : (s.withChannel c x).inputs = s.inputs := rfl
@[simp] theorem State.withChannel_attention (s : State) (c : Chan) (x : ChannelRun) : (s.withChannel c x).attention = s.attention := rfl
@[simp] theorem State.withChannel_mainPort (s : State) (c : Chan) (x : ChannelRun) : (s.withChannel c x).mainPort = s.mainPort := rfl
@[simp] theorem State.withChannel_panelPort (s : State) (c : Chan) (x : ChannelRun) : (s.withChannel c x).panelPort = s.panelPort := rfl
@[simp] theorem State.withChannel_panelBus (s : State) (c : Chan) (x : ChannelRun) : (s.withChannel c x).panelBus = s.panelBus := rfl
@[simp] theorem State.withChannel_policy (s : State) (c : Chan) (x : ChannelRun) : (s.withChannel c x).policy = s.policy := rfl
@[simp] theorem State.withChannel_pending (s : State) (c : Chan) (x : ChannelRun) : (s.withChannel c x).pending = s.pending := rfl

/-! ### `State.withBinding` -/

@[simp] theorem State.withBinding_supply (s : State) (k : InputNo) (x : Binding) : (s.withBinding k x).supply = s.supply := rfl
@[simp] theorem State.withBinding_inReset (s : State) (k : InputNo) (x : Binding) : (s.withBinding k x).inReset = s.inReset := rfl
@[simp] theorem State.withBinding_pins (s : State) (k : InputNo) (x : Binding) : (s.withBinding k x).pins = s.pins := rfl
@[simp] theorem State.withBinding_timebase (s : State) (k : InputNo) (x : Binding) : (s.withBinding k x).timebase = s.timebase := rfl
@[simp] theorem State.withBinding_clock (s : State) (k : InputNo) (x : Binding) : (s.withBinding k x).clock = s.clock := rfl
@[simp] theorem State.withBinding_dates (s : State) (k : InputNo) (x : Binding) : (s.withBinding k x).dates = s.dates := rfl
@[simp] theorem State.withBinding_table (s : State) (k : InputNo) (x : Binding) : (s.withBinding k x).table = s.table := rfl
@[simp] theorem State.withBinding_engine (s : State) (k : InputNo) (x : Binding) : (s.withBinding k x).engine = s.engine := rfl
@[simp] theorem State.withBinding_arbiter (s : State) (k : InputNo) (x : Binding) : (s.withBinding k x).arbiter = s.arbiter := rfl
@[simp] theorem State.withBinding_configs (s : State) (k : InputNo) (x : Binding) : (s.withBinding k x).configs = s.configs := rfl
@[simp] theorem State.withBinding_channels (s : State) (k : InputNo) (x : Binding) : (s.withBinding k x).channels = s.channels := rfl
@[simp] theorem State.withBinding_bindings (s : State) (k : InputNo) (x : Binding) : (s.withBinding k x).bindings = s.bindings.set k x := rfl
@[simp] theorem State.withBinding_inputs (s : State) (k : InputNo) (x : Binding) : (s.withBinding k x).inputs = s.inputs := rfl
@[simp] theorem State.withBinding_attention (s : State) (k : InputNo) (x : Binding) : (s.withBinding k x).attention = s.attention := rfl
@[simp] theorem State.withBinding_mainPort (s : State) (k : InputNo) (x : Binding) : (s.withBinding k x).mainPort = s.mainPort := rfl
@[simp] theorem State.withBinding_panelPort (s : State) (k : InputNo) (x : Binding) : (s.withBinding k x).panelPort = s.panelPort := rfl
@[simp] theorem State.withBinding_panelBus (s : State) (k : InputNo) (x : Binding) : (s.withBinding k x).panelBus = s.panelBus := rfl
@[simp] theorem State.withBinding_policy (s : State) (k : InputNo) (x : Binding) : (s.withBinding k x).policy = s.policy := rfl
@[simp] theorem State.withBinding_pending (s : State) (k : InputNo) (x : Binding) : (s.withBinding k x).pending = s.pending := rfl

/-! ### `State.withInput` -/

@[simp] theorem State.withInput_supply (s : State) (k : InputNo) (x : InputRun) : (s.withInput k x).supply = s.supply := rfl
@[simp] theorem State.withInput_inReset (s : State) (k : InputNo) (x : InputRun) : (s.withInput k x).inReset = s.inReset := rfl
@[simp] theorem State.withInput_pins (s : State) (k : InputNo) (x : InputRun) : (s.withInput k x).pins = s.pins := rfl
@[simp] theorem State.withInput_timebase (s : State) (k : InputNo) (x : InputRun) : (s.withInput k x).timebase = s.timebase := rfl
@[simp] theorem State.withInput_clock (s : State) (k : InputNo) (x : InputRun) : (s.withInput k x).clock = s.clock := rfl
@[simp] theorem State.withInput_dates (s : State) (k : InputNo) (x : InputRun) : (s.withInput k x).dates = s.dates := rfl
@[simp] theorem State.withInput_table (s : State) (k : InputNo) (x : InputRun) : (s.withInput k x).table = s.table := rfl
@[simp] theorem State.withInput_engine (s : State) (k : InputNo) (x : InputRun) : (s.withInput k x).engine = s.engine := rfl
@[simp] theorem State.withInput_arbiter (s : State) (k : InputNo) (x : InputRun) : (s.withInput k x).arbiter = s.arbiter := rfl
@[simp] theorem State.withInput_configs (s : State) (k : InputNo) (x : InputRun) : (s.withInput k x).configs = s.configs := rfl
@[simp] theorem State.withInput_channels (s : State) (k : InputNo) (x : InputRun) : (s.withInput k x).channels = s.channels := rfl
@[simp] theorem State.withInput_bindings (s : State) (k : InputNo) (x : InputRun) : (s.withInput k x).bindings = s.bindings := rfl
@[simp] theorem State.withInput_inputs (s : State) (k : InputNo) (x : InputRun) : (s.withInput k x).inputs = s.inputs.set k x := rfl
@[simp] theorem State.withInput_attention (s : State) (k : InputNo) (x : InputRun) : (s.withInput k x).attention = s.attention := rfl
@[simp] theorem State.withInput_mainPort (s : State) (k : InputNo) (x : InputRun) : (s.withInput k x).mainPort = s.mainPort := rfl
@[simp] theorem State.withInput_panelPort (s : State) (k : InputNo) (x : InputRun) : (s.withInput k x).panelPort = s.panelPort := rfl
@[simp] theorem State.withInput_panelBus (s : State) (k : InputNo) (x : InputRun) : (s.withInput k x).panelBus = s.panelBus := rfl
@[simp] theorem State.withInput_policy (s : State) (k : InputNo) (x : InputRun) : (s.withInput k x).policy = s.policy := rfl
@[simp] theorem State.withInput_pending (s : State) (k : InputNo) (x : InputRun) : (s.withInput k x).pending = s.pending := rfl

/-! ### `State.withAttention` -/

@[simp] theorem State.withAttention_supply (s : State) (x : Attention) : (s.withAttention x).supply = s.supply := rfl
@[simp] theorem State.withAttention_inReset (s : State) (x : Attention) : (s.withAttention x).inReset = s.inReset := rfl
@[simp] theorem State.withAttention_pins (s : State) (x : Attention) : (s.withAttention x).pins = s.pins := rfl
@[simp] theorem State.withAttention_timebase (s : State) (x : Attention) : (s.withAttention x).timebase = s.timebase := rfl
@[simp] theorem State.withAttention_clock (s : State) (x : Attention) : (s.withAttention x).clock = s.clock := rfl
@[simp] theorem State.withAttention_dates (s : State) (x : Attention) : (s.withAttention x).dates = s.dates := rfl
@[simp] theorem State.withAttention_table (s : State) (x : Attention) : (s.withAttention x).table = s.table := rfl
@[simp] theorem State.withAttention_engine (s : State) (x : Attention) : (s.withAttention x).engine = s.engine := rfl
@[simp] theorem State.withAttention_arbiter (s : State) (x : Attention) : (s.withAttention x).arbiter = s.arbiter := rfl
@[simp] theorem State.withAttention_configs (s : State) (x : Attention) : (s.withAttention x).configs = s.configs := rfl
@[simp] theorem State.withAttention_channels (s : State) (x : Attention) : (s.withAttention x).channels = s.channels := rfl
@[simp] theorem State.withAttention_bindings (s : State) (x : Attention) : (s.withAttention x).bindings = s.bindings := rfl
@[simp] theorem State.withAttention_inputs (s : State) (x : Attention) : (s.withAttention x).inputs = s.inputs := rfl
@[simp] theorem State.withAttention_attention (s : State) (x : Attention) : (s.withAttention x).attention = x := rfl
@[simp] theorem State.withAttention_mainPort (s : State) (x : Attention) : (s.withAttention x).mainPort = s.mainPort := rfl
@[simp] theorem State.withAttention_panelPort (s : State) (x : Attention) : (s.withAttention x).panelPort = s.panelPort := rfl
@[simp] theorem State.withAttention_panelBus (s : State) (x : Attention) : (s.withAttention x).panelBus = s.panelBus := rfl
@[simp] theorem State.withAttention_policy (s : State) (x : Attention) : (s.withAttention x).policy = s.policy := rfl
@[simp] theorem State.withAttention_pending (s : State) (x : Attention) : (s.withAttention x).pending = s.pending := rfl

/-! ### `State.withPanelBus` -/

@[simp] theorem State.withPanelBus_supply (s : State) (x : PanelBus) : (s.withPanelBus x).supply = s.supply := rfl
@[simp] theorem State.withPanelBus_inReset (s : State) (x : PanelBus) : (s.withPanelBus x).inReset = s.inReset := rfl
@[simp] theorem State.withPanelBus_pins (s : State) (x : PanelBus) : (s.withPanelBus x).pins = s.pins := rfl
@[simp] theorem State.withPanelBus_timebase (s : State) (x : PanelBus) : (s.withPanelBus x).timebase = s.timebase := rfl
@[simp] theorem State.withPanelBus_clock (s : State) (x : PanelBus) : (s.withPanelBus x).clock = s.clock := rfl
@[simp] theorem State.withPanelBus_dates (s : State) (x : PanelBus) : (s.withPanelBus x).dates = s.dates := rfl
@[simp] theorem State.withPanelBus_table (s : State) (x : PanelBus) : (s.withPanelBus x).table = s.table := rfl
@[simp] theorem State.withPanelBus_engine (s : State) (x : PanelBus) : (s.withPanelBus x).engine = s.engine := rfl
@[simp] theorem State.withPanelBus_arbiter (s : State) (x : PanelBus) : (s.withPanelBus x).arbiter = s.arbiter := rfl
@[simp] theorem State.withPanelBus_configs (s : State) (x : PanelBus) : (s.withPanelBus x).configs = s.configs := rfl
@[simp] theorem State.withPanelBus_channels (s : State) (x : PanelBus) : (s.withPanelBus x).channels = s.channels := rfl
@[simp] theorem State.withPanelBus_bindings (s : State) (x : PanelBus) : (s.withPanelBus x).bindings = s.bindings := rfl
@[simp] theorem State.withPanelBus_inputs (s : State) (x : PanelBus) : (s.withPanelBus x).inputs = s.inputs := rfl
@[simp] theorem State.withPanelBus_attention (s : State) (x : PanelBus) : (s.withPanelBus x).attention = s.attention := rfl
@[simp] theorem State.withPanelBus_mainPort (s : State) (x : PanelBus) : (s.withPanelBus x).mainPort = s.mainPort := rfl
@[simp] theorem State.withPanelBus_panelPort (s : State) (x : PanelBus) : (s.withPanelBus x).panelPort = s.panelPort := rfl
@[simp] theorem State.withPanelBus_panelBus (s : State) (x : PanelBus) : (s.withPanelBus x).panelBus = x := rfl
@[simp] theorem State.withPanelBus_policy (s : State) (x : PanelBus) : (s.withPanelBus x).policy = s.policy := rfl
@[simp] theorem State.withPanelBus_pending (s : State) (x : PanelBus) : (s.withPanelBus x).pending = s.pending := rfl

/-! ### `State.withDates` -/

@[simp] theorem State.withDates_supply (s : State) (x : DateSet) : (s.withDates x).supply = s.supply := rfl
@[simp] theorem State.withDates_inReset (s : State) (x : DateSet) : (s.withDates x).inReset = s.inReset := rfl
@[simp] theorem State.withDates_pins (s : State) (x : DateSet) : (s.withDates x).pins = s.pins := rfl
@[simp] theorem State.withDates_timebase (s : State) (x : DateSet) : (s.withDates x).timebase = s.timebase := rfl
@[simp] theorem State.withDates_clock (s : State) (x : DateSet) : (s.withDates x).clock = s.clock := rfl
@[simp] theorem State.withDates_dates (s : State) (x : DateSet) : (s.withDates x).dates = x := rfl
@[simp] theorem State.withDates_table (s : State) (x : DateSet) : (s.withDates x).table = s.table := rfl
@[simp] theorem State.withDates_engine (s : State) (x : DateSet) : (s.withDates x).engine = s.engine := rfl
@[simp] theorem State.withDates_arbiter (s : State) (x : DateSet) : (s.withDates x).arbiter = s.arbiter := rfl
@[simp] theorem State.withDates_configs (s : State) (x : DateSet) : (s.withDates x).configs = s.configs := rfl
@[simp] theorem State.withDates_channels (s : State) (x : DateSet) : (s.withDates x).channels = s.channels := rfl
@[simp] theorem State.withDates_bindings (s : State) (x : DateSet) : (s.withDates x).bindings = s.bindings := rfl
@[simp] theorem State.withDates_inputs (s : State) (x : DateSet) : (s.withDates x).inputs = s.inputs := rfl
@[simp] theorem State.withDates_attention (s : State) (x : DateSet) : (s.withDates x).attention = s.attention := rfl
@[simp] theorem State.withDates_mainPort (s : State) (x : DateSet) : (s.withDates x).mainPort = s.mainPort := rfl
@[simp] theorem State.withDates_panelPort (s : State) (x : DateSet) : (s.withDates x).panelPort = s.panelPort := rfl
@[simp] theorem State.withDates_panelBus (s : State) (x : DateSet) : (s.withDates x).panelBus = s.panelBus := rfl
@[simp] theorem State.withDates_policy (s : State) (x : DateSet) : (s.withDates x).policy = s.policy := rfl
@[simp] theorem State.withDates_pending (s : State) (x : DateSet) : (s.withDates x).pending = s.pending := rfl

/-! ### `State.withClock` -/

@[simp] theorem State.withClock_supply (s : State) (x : Clock) : (s.withClock x).supply = s.supply := rfl
@[simp] theorem State.withClock_inReset (s : State) (x : Clock) : (s.withClock x).inReset = s.inReset := rfl
@[simp] theorem State.withClock_pins (s : State) (x : Clock) : (s.withClock x).pins = s.pins := rfl
@[simp] theorem State.withClock_timebase (s : State) (x : Clock) : (s.withClock x).timebase = s.timebase := rfl
@[simp] theorem State.withClock_clock (s : State) (x : Clock) : (s.withClock x).clock = x := rfl
@[simp] theorem State.withClock_dates (s : State) (x : Clock) : (s.withClock x).dates = s.dates := rfl
@[simp] theorem State.withClock_table (s : State) (x : Clock) : (s.withClock x).table = s.table := rfl
@[simp] theorem State.withClock_engine (s : State) (x : Clock) : (s.withClock x).engine = s.engine := rfl
@[simp] theorem State.withClock_arbiter (s : State) (x : Clock) : (s.withClock x).arbiter = s.arbiter := rfl
@[simp] theorem State.withClock_configs (s : State) (x : Clock) : (s.withClock x).configs = s.configs := rfl
@[simp] theorem State.withClock_channels (s : State) (x : Clock) : (s.withClock x).channels = s.channels := rfl
@[simp] theorem State.withClock_bindings (s : State) (x : Clock) : (s.withClock x).bindings = s.bindings := rfl
@[simp] theorem State.withClock_inputs (s : State) (x : Clock) : (s.withClock x).inputs = s.inputs := rfl
@[simp] theorem State.withClock_attention (s : State) (x : Clock) : (s.withClock x).attention = s.attention := rfl
@[simp] theorem State.withClock_mainPort (s : State) (x : Clock) : (s.withClock x).mainPort = s.mainPort := rfl
@[simp] theorem State.withClock_panelPort (s : State) (x : Clock) : (s.withClock x).panelPort = s.panelPort := rfl
@[simp] theorem State.withClock_panelBus (s : State) (x : Clock) : (s.withClock x).panelBus = s.panelBus := rfl
@[simp] theorem State.withClock_policy (s : State) (x : Clock) : (s.withClock x).policy = s.policy := rfl
@[simp] theorem State.withClock_pending (s : State) (x : Clock) : (s.withClock x).pending = s.pending := rfl

/-! ### `State.withTimebase` -/

@[simp] theorem State.withTimebase_supply (s : State) (x : Timebase) : (s.withTimebase x).supply = s.supply := rfl
@[simp] theorem State.withTimebase_inReset (s : State) (x : Timebase) : (s.withTimebase x).inReset = s.inReset := rfl
@[simp] theorem State.withTimebase_pins (s : State) (x : Timebase) : (s.withTimebase x).pins = s.pins := rfl
@[simp] theorem State.withTimebase_timebase (s : State) (x : Timebase) : (s.withTimebase x).timebase = x := rfl
@[simp] theorem State.withTimebase_clock (s : State) (x : Timebase) : (s.withTimebase x).clock = s.clock := rfl
@[simp] theorem State.withTimebase_dates (s : State) (x : Timebase) : (s.withTimebase x).dates = s.dates := rfl
@[simp] theorem State.withTimebase_table (s : State) (x : Timebase) : (s.withTimebase x).table = s.table := rfl
@[simp] theorem State.withTimebase_engine (s : State) (x : Timebase) : (s.withTimebase x).engine = s.engine := rfl
@[simp] theorem State.withTimebase_arbiter (s : State) (x : Timebase) : (s.withTimebase x).arbiter = s.arbiter := rfl
@[simp] theorem State.withTimebase_configs (s : State) (x : Timebase) : (s.withTimebase x).configs = s.configs := rfl
@[simp] theorem State.withTimebase_channels (s : State) (x : Timebase) : (s.withTimebase x).channels = s.channels := rfl
@[simp] theorem State.withTimebase_bindings (s : State) (x : Timebase) : (s.withTimebase x).bindings = s.bindings := rfl
@[simp] theorem State.withTimebase_inputs (s : State) (x : Timebase) : (s.withTimebase x).inputs = s.inputs := rfl
@[simp] theorem State.withTimebase_attention (s : State) (x : Timebase) : (s.withTimebase x).attention = s.attention := rfl
@[simp] theorem State.withTimebase_mainPort (s : State) (x : Timebase) : (s.withTimebase x).mainPort = s.mainPort := rfl
@[simp] theorem State.withTimebase_panelPort (s : State) (x : Timebase) : (s.withTimebase x).panelPort = s.panelPort := rfl
@[simp] theorem State.withTimebase_panelBus (s : State) (x : Timebase) : (s.withTimebase x).panelBus = s.panelBus := rfl
@[simp] theorem State.withTimebase_policy (s : State) (x : Timebase) : (s.withTimebase x).policy = s.policy := rfl
@[simp] theorem State.withTimebase_pending (s : State) (x : Timebase) : (s.withTimebase x).pending = s.pending := rfl

/-! ### `State.withPins` -/

@[simp] theorem State.withPins_supply (s : State) (x : Pins) : (s.withPins x).supply = s.supply := rfl
@[simp] theorem State.withPins_inReset (s : State) (x : Pins) : (s.withPins x).inReset = s.inReset := rfl
@[simp] theorem State.withPins_pins (s : State) (x : Pins) : (s.withPins x).pins = x := rfl
@[simp] theorem State.withPins_timebase (s : State) (x : Pins) : (s.withPins x).timebase = s.timebase := rfl
@[simp] theorem State.withPins_clock (s : State) (x : Pins) : (s.withPins x).clock = s.clock := rfl
@[simp] theorem State.withPins_dates (s : State) (x : Pins) : (s.withPins x).dates = s.dates := rfl
@[simp] theorem State.withPins_table (s : State) (x : Pins) : (s.withPins x).table = s.table := rfl
@[simp] theorem State.withPins_engine (s : State) (x : Pins) : (s.withPins x).engine = s.engine := rfl
@[simp] theorem State.withPins_arbiter (s : State) (x : Pins) : (s.withPins x).arbiter = s.arbiter := rfl
@[simp] theorem State.withPins_configs (s : State) (x : Pins) : (s.withPins x).configs = s.configs := rfl
@[simp] theorem State.withPins_channels (s : State) (x : Pins) : (s.withPins x).channels = s.channels := rfl
@[simp] theorem State.withPins_bindings (s : State) (x : Pins) : (s.withPins x).bindings = s.bindings := rfl
@[simp] theorem State.withPins_inputs (s : State) (x : Pins) : (s.withPins x).inputs = s.inputs := rfl
@[simp] theorem State.withPins_attention (s : State) (x : Pins) : (s.withPins x).attention = s.attention := rfl
@[simp] theorem State.withPins_mainPort (s : State) (x : Pins) : (s.withPins x).mainPort = s.mainPort := rfl
@[simp] theorem State.withPins_panelPort (s : State) (x : Pins) : (s.withPins x).panelPort = s.panelPort := rfl
@[simp] theorem State.withPins_panelBus (s : State) (x : Pins) : (s.withPins x).panelBus = s.panelBus := rfl
@[simp] theorem State.withPins_policy (s : State) (x : Pins) : (s.withPins x).policy = s.policy := rfl
@[simp] theorem State.withPins_pending (s : State) (x : Pins) : (s.withPins x).pending = s.pending := rfl

/-! ### `State.withPolicy` -/

@[simp] theorem State.withPolicy_supply (s : State) (x : BitVec 4) : (s.withPolicy x).supply = s.supply := rfl
@[simp] theorem State.withPolicy_inReset (s : State) (x : BitVec 4) : (s.withPolicy x).inReset = s.inReset := rfl
@[simp] theorem State.withPolicy_pins (s : State) (x : BitVec 4) : (s.withPolicy x).pins = s.pins := rfl
@[simp] theorem State.withPolicy_timebase (s : State) (x : BitVec 4) : (s.withPolicy x).timebase = s.timebase := rfl
@[simp] theorem State.withPolicy_clock (s : State) (x : BitVec 4) : (s.withPolicy x).clock = s.clock := rfl
@[simp] theorem State.withPolicy_dates (s : State) (x : BitVec 4) : (s.withPolicy x).dates = s.dates := rfl
@[simp] theorem State.withPolicy_table (s : State) (x : BitVec 4) : (s.withPolicy x).table = s.table := rfl
@[simp] theorem State.withPolicy_engine (s : State) (x : BitVec 4) : (s.withPolicy x).engine = s.engine := rfl
@[simp] theorem State.withPolicy_arbiter (s : State) (x : BitVec 4) : (s.withPolicy x).arbiter = s.arbiter := rfl
@[simp] theorem State.withPolicy_configs (s : State) (x : BitVec 4) : (s.withPolicy x).configs = s.configs := rfl
@[simp] theorem State.withPolicy_channels (s : State) (x : BitVec 4) : (s.withPolicy x).channels = s.channels := rfl
@[simp] theorem State.withPolicy_bindings (s : State) (x : BitVec 4) : (s.withPolicy x).bindings = s.bindings := rfl
@[simp] theorem State.withPolicy_inputs (s : State) (x : BitVec 4) : (s.withPolicy x).inputs = s.inputs := rfl
@[simp] theorem State.withPolicy_attention (s : State) (x : BitVec 4) : (s.withPolicy x).attention = s.attention := rfl
@[simp] theorem State.withPolicy_mainPort (s : State) (x : BitVec 4) : (s.withPolicy x).mainPort = s.mainPort := rfl
@[simp] theorem State.withPolicy_panelPort (s : State) (x : BitVec 4) : (s.withPolicy x).panelPort = s.panelPort := rfl
@[simp] theorem State.withPolicy_panelBus (s : State) (x : BitVec 4) : (s.withPolicy x).panelBus = s.panelBus := rfl
@[simp] theorem State.withPolicy_policy (s : State) (x : BitVec 4) : (s.withPolicy x).policy = x := rfl
@[simp] theorem State.withPolicy_pending (s : State) (x : BitVec 4) : (s.withPolicy x).pending = s.pending := rfl

/-! ### `State.withPort` -/

@[simp] theorem State.withPort_supply (s : State) (p : Port) (x : PortState) : (s.withPort p x).supply = s.supply := by
  cases p <;> rfl
@[simp] theorem State.withPort_inReset (s : State) (p : Port) (x : PortState) : (s.withPort p x).inReset = s.inReset := by
  cases p <;> rfl
@[simp] theorem State.withPort_pins (s : State) (p : Port) (x : PortState) : (s.withPort p x).pins = s.pins := by
  cases p <;> rfl
@[simp] theorem State.withPort_timebase (s : State) (p : Port) (x : PortState) : (s.withPort p x).timebase = s.timebase := by
  cases p <;> rfl
@[simp] theorem State.withPort_clock (s : State) (p : Port) (x : PortState) : (s.withPort p x).clock = s.clock := by
  cases p <;> rfl
@[simp] theorem State.withPort_dates (s : State) (p : Port) (x : PortState) : (s.withPort p x).dates = s.dates := by
  cases p <;> rfl
@[simp] theorem State.withPort_table (s : State) (p : Port) (x : PortState) : (s.withPort p x).table = s.table := by
  cases p <;> rfl
@[simp] theorem State.withPort_engine (s : State) (p : Port) (x : PortState) : (s.withPort p x).engine = s.engine := by
  cases p <;> rfl
@[simp] theorem State.withPort_arbiter (s : State) (p : Port) (x : PortState) : (s.withPort p x).arbiter = s.arbiter := by
  cases p <;> rfl
@[simp] theorem State.withPort_configs (s : State) (p : Port) (x : PortState) : (s.withPort p x).configs = s.configs := by
  cases p <;> rfl
@[simp] theorem State.withPort_channels (s : State) (p : Port) (x : PortState) : (s.withPort p x).channels = s.channels := by
  cases p <;> rfl
@[simp] theorem State.withPort_bindings (s : State) (p : Port) (x : PortState) : (s.withPort p x).bindings = s.bindings := by
  cases p <;> rfl
@[simp] theorem State.withPort_inputs (s : State) (p : Port) (x : PortState) : (s.withPort p x).inputs = s.inputs := by
  cases p <;> rfl
@[simp] theorem State.withPort_attention (s : State) (p : Port) (x : PortState) : (s.withPort p x).attention = s.attention := by
  cases p <;> rfl
@[simp] theorem State.withPort_panelBus (s : State) (p : Port) (x : PortState) : (s.withPort p x).panelBus = s.panelBus := by
  cases p <;> rfl
@[simp] theorem State.withPort_policy (s : State) (p : Port) (x : PortState) : (s.withPort p x).policy = s.policy := by
  cases p <;> rfl
@[simp] theorem State.withPort_pending (s : State) (p : Port) (x : PortState) : (s.withPort p x).pending = s.pending := by
  cases p <;> rfl

@[simp] theorem State.withPort_port_self (s : State) (p : Port) (x : PortState) : (s.withPort p x).port p = x := by
  cases p <;> rfl

theorem State.withPort_port_ne (s : State) {p q : Port} (x : PortState) (h : q ≠ p) : (s.withPort p x).port q = s.port q := by
  cases p <;> cases q <;> first | rfl | exact absurd rfl h

/-! ### `State.irqFollow`: only the pulse of the attention unit can change (R174, R175) -/

@[simp] theorem State.irqFollow_supply (b s : State) : (b.irqFollow s).supply = s.supply := rfl
@[simp] theorem State.irqFollow_inReset (b s : State) : (b.irqFollow s).inReset = s.inReset := rfl
@[simp] theorem State.irqFollow_pins (b s : State) : (b.irqFollow s).pins = s.pins := rfl
@[simp] theorem State.irqFollow_timebase (b s : State) : (b.irqFollow s).timebase = s.timebase := rfl
@[simp] theorem State.irqFollow_clock (b s : State) : (b.irqFollow s).clock = s.clock := rfl
@[simp] theorem State.irqFollow_dates (b s : State) : (b.irqFollow s).dates = s.dates := rfl
@[simp] theorem State.irqFollow_table (b s : State) : (b.irqFollow s).table = s.table := rfl
@[simp] theorem State.irqFollow_engine (b s : State) : (b.irqFollow s).engine = s.engine := rfl
@[simp] theorem State.irqFollow_arbiter (b s : State) : (b.irqFollow s).arbiter = s.arbiter := rfl
@[simp] theorem State.irqFollow_configs (b s : State) : (b.irqFollow s).configs = s.configs := rfl
@[simp] theorem State.irqFollow_channels (b s : State) : (b.irqFollow s).channels = s.channels := rfl
@[simp] theorem State.irqFollow_bindings (b s : State) : (b.irqFollow s).bindings = s.bindings := rfl
@[simp] theorem State.irqFollow_inputs (b s : State) : (b.irqFollow s).inputs = s.inputs := rfl
@[simp] theorem State.irqFollow_mainPort (b s : State) : (b.irqFollow s).mainPort = s.mainPort := rfl
@[simp] theorem State.irqFollow_panelPort (b s : State) : (b.irqFollow s).panelPort = s.panelPort := rfl
@[simp] theorem State.irqFollow_panelBus (b s : State) : (b.irqFollow s).panelBus = s.panelBus := rfl
@[simp] theorem State.irqFollow_policy (b s : State) : (b.irqFollow s).policy = s.policy := rfl
@[simp] theorem State.irqFollow_pending (b s : State) : (b.irqFollow s).pending = s.pending := rfl
@[simp] theorem State.irqFollow_attention_entryNotices (b s : State) : (b.irqFollow s).attention.entryNotices = s.attention.entryNotices := rfl
@[simp] theorem State.irqFollow_attention_channelNotices (b s : State) : (b.irqFollow s).attention.channelNotices = s.attention.channelNotices := rfl
@[simp] theorem State.irqFollow_attention_tickCause (b s : State) : (b.irqFollow s).attention.tickCause = s.attention.tickCause := rfl
@[simp] theorem State.irqFollow_attention_invalidCause (b s : State) : (b.irqFollow s).attention.invalidCause = s.attention.invalidCause := rfl
@[simp] theorem State.irqFollow_attention_groups (b s : State) : (b.irqFollow s).attention.groups = s.attention.groups := rfl
@[simp] theorem State.irqFollow_attention_irqMode (b s : State) : (b.irqFollow s).attention.irqMode = s.attention.irqMode := rfl
@[simp] theorem State.irqFollow_attention_tickPeriod (b s : State) : (b.irqFollow s).attention.tickPeriod = s.attention.tickPeriod := rfl

/-! ### The accessors after an update of one place -/

@[simp] theorem State.slot_withSlot_self (s : State) (i : SlotNo) (x : Slot) : (s.withSlot i x).slot i = x := by
  simp [State.slot]

theorem State.slot_withSlot_ne (s : State) {i j : SlotNo} (x : Slot) (h : j ≠ i) : (s.withSlot i x).slot j = s.slot j := by
  have : (i : Nat) ≠ j := fun e => h (Fin.ext e.symm)
  simp [State.slot, this]

@[simp] theorem State.channel_withChannel_self (s : State) (c : Chan) (x : ChannelRun) :
    (s.withChannel c x).channel c = x := by
  simp [State.channel]

theorem State.channel_withChannel_ne (s : State) {c d : Chan} (x : ChannelRun) (h : d ≠ c) :
    (s.withChannel c x).channel d = s.channel d := by
  have : (c : Nat) ≠ d := fun e => h (Fin.ext e.symm)
  simp [State.channel, this]

@[simp] theorem State.config_withConfig_self (s : State) (c : Chan) (x : ChannelConfig) :
    (s.withConfig c x).config c = x := by
  simp [State.config]

theorem State.config_withConfig_ne (s : State) {c d : Chan} (x : ChannelConfig) (h : d ≠ c) :
    (s.withConfig c x).config d = s.config d := by
  have : (c : Nat) ≠ d := fun e => h (Fin.ext e.symm)
  simp [State.config, this]

@[simp] theorem State.binding_withBinding_self (s : State) (k : InputNo) (x : Binding) :
    (s.withBinding k x).binding k = x := by
  simp [State.binding]

theorem State.binding_withBinding_ne (s : State) {k l : InputNo} (x : Binding) (h : l ≠ k) :
    (s.withBinding k x).binding l = s.binding l := by
  have : (k : Nat) ≠ l := fun e => h (Fin.ext e.symm)
  simp [State.binding, this]

@[simp] theorem State.input_withInput_self (s : State) (k : InputNo) (x : InputRun) : (s.withInput k x).input k = x := by
  simp [State.input]

theorem State.input_withInput_ne (s : State) {k l : InputNo} (x : InputRun) (h : l ≠ k) :
    (s.withInput k x).input l = s.input l := by
  have : (k : Nat) ≠ l := fun e => h (Fin.ext e.symm)
  simp [State.input, this]

/-! ### The accessors after an update of another field -/

@[simp] theorem State.withEngine_slot (s : State) (x : Engine) (j : SlotNo) : (s.withEngine x).slot j = s.slot j := rfl
@[simp] theorem State.withArbiter_slot (s : State) (x : Arbiter) (j : SlotNo) : (s.withArbiter x).slot j = s.slot j := rfl
@[simp] theorem State.withConfig_slot (s : State) (c : Chan) (x : ChannelConfig) (j : SlotNo) : (s.withConfig c x).slot j = s.slot j := rfl
@[simp] theorem State.withChannel_slot (s : State) (c : Chan) (x : ChannelRun) (j : SlotNo) : (s.withChannel c x).slot j = s.slot j := rfl
@[simp] theorem State.withBinding_slot (s : State) (k : InputNo) (x : Binding) (j : SlotNo) : (s.withBinding k x).slot j = s.slot j := rfl
@[simp] theorem State.withInput_slot (s : State) (k : InputNo) (x : InputRun) (j : SlotNo) : (s.withInput k x).slot j = s.slot j := rfl
@[simp] theorem State.withAttention_slot (s : State) (x : Attention) (j : SlotNo) : (s.withAttention x).slot j = s.slot j := rfl
@[simp] theorem State.withPanelBus_slot (s : State) (x : PanelBus) (j : SlotNo) : (s.withPanelBus x).slot j = s.slot j := rfl
@[simp] theorem State.withDates_slot (s : State) (x : DateSet) (j : SlotNo) : (s.withDates x).slot j = s.slot j := rfl
@[simp] theorem State.withClock_slot (s : State) (x : Clock) (j : SlotNo) : (s.withClock x).slot j = s.slot j := rfl
@[simp] theorem State.withTimebase_slot (s : State) (x : Timebase) (j : SlotNo) : (s.withTimebase x).slot j = s.slot j := rfl
@[simp] theorem State.withPins_slot (s : State) (x : Pins) (j : SlotNo) : (s.withPins x).slot j = s.slot j := rfl
@[simp] theorem State.withPolicy_slot (s : State) (x : BitVec 4) (j : SlotNo) : (s.withPolicy x).slot j = s.slot j := rfl
@[simp] theorem State.withPort_slot (s : State) (p : Port) (x : PortState) (j : SlotNo) : (s.withPort p x).slot j = s.slot j := by
  cases p <;> rfl
@[simp] theorem State.irqFollow_slot (b s : State) (j : SlotNo) : (b.irqFollow s).slot j = s.slot j := rfl

@[simp] theorem State.withSlot_list (s : State) (i : SlotNo) (x : Slot) (d : Chan) : (s.withSlot i x).list d = s.list d := rfl
@[simp] theorem State.withTable_list (s : State) (x : Vector Slot 256) (d : Chan) : (s.withTable x).list d = s.list d := rfl
@[simp] theorem State.withEngine_list (s : State) (x : Engine) (d : Chan) : (s.withEngine x).list d = s.list d := rfl
@[simp] theorem State.withConfig_list (s : State) (c : Chan) (x : ChannelConfig) (d : Chan) : (s.withConfig c x).list d = s.list d := rfl
@[simp] theorem State.withChannel_list (s : State) (c : Chan) (x : ChannelRun) (d : Chan) : (s.withChannel c x).list d = s.list d := rfl
@[simp] theorem State.withBinding_list (s : State) (k : InputNo) (x : Binding) (d : Chan) : (s.withBinding k x).list d = s.list d := rfl
@[simp] theorem State.withInput_list (s : State) (k : InputNo) (x : InputRun) (d : Chan) : (s.withInput k x).list d = s.list d := rfl
@[simp] theorem State.withAttention_list (s : State) (x : Attention) (d : Chan) : (s.withAttention x).list d = s.list d := rfl
@[simp] theorem State.withPanelBus_list (s : State) (x : PanelBus) (d : Chan) : (s.withPanelBus x).list d = s.list d := rfl
@[simp] theorem State.withDates_list (s : State) (x : DateSet) (d : Chan) : (s.withDates x).list d = s.list d := rfl
@[simp] theorem State.withClock_list (s : State) (x : Clock) (d : Chan) : (s.withClock x).list d = s.list d := rfl
@[simp] theorem State.withTimebase_list (s : State) (x : Timebase) (d : Chan) : (s.withTimebase x).list d = s.list d := rfl
@[simp] theorem State.withPins_list (s : State) (x : Pins) (d : Chan) : (s.withPins x).list d = s.list d := rfl
@[simp] theorem State.withPolicy_list (s : State) (x : BitVec 4) (d : Chan) : (s.withPolicy x).list d = s.list d := rfl
@[simp] theorem State.withPort_list (s : State) (p : Port) (x : PortState) (d : Chan) : (s.withPort p x).list d = s.list d := by
  cases p <;> rfl
@[simp] theorem State.irqFollow_list (b s : State) (d : Chan) : (b.irqFollow s).list d = s.list d := rfl

@[simp] theorem State.withSlot_lastTop (s : State) (i : SlotNo) (x : Slot) (d : Chan) : (s.withSlot i x).lastTop d = s.lastTop d := rfl
@[simp] theorem State.withTable_lastTop (s : State) (x : Vector Slot 256) (d : Chan) : (s.withTable x).lastTop d = s.lastTop d := rfl
@[simp] theorem State.withEngine_lastTop (s : State) (x : Engine) (d : Chan) : (s.withEngine x).lastTop d = s.lastTop d := rfl
@[simp] theorem State.withConfig_lastTop (s : State) (c : Chan) (x : ChannelConfig) (d : Chan) : (s.withConfig c x).lastTop d = s.lastTop d := rfl
@[simp] theorem State.withChannel_lastTop (s : State) (c : Chan) (x : ChannelRun) (d : Chan) : (s.withChannel c x).lastTop d = s.lastTop d := rfl
@[simp] theorem State.withBinding_lastTop (s : State) (k : InputNo) (x : Binding) (d : Chan) : (s.withBinding k x).lastTop d = s.lastTop d := rfl
@[simp] theorem State.withInput_lastTop (s : State) (k : InputNo) (x : InputRun) (d : Chan) : (s.withInput k x).lastTop d = s.lastTop d := rfl
@[simp] theorem State.withAttention_lastTop (s : State) (x : Attention) (d : Chan) : (s.withAttention x).lastTop d = s.lastTop d := rfl
@[simp] theorem State.withPanelBus_lastTop (s : State) (x : PanelBus) (d : Chan) : (s.withPanelBus x).lastTop d = s.lastTop d := rfl
@[simp] theorem State.withDates_lastTop (s : State) (x : DateSet) (d : Chan) : (s.withDates x).lastTop d = s.lastTop d := rfl
@[simp] theorem State.withClock_lastTop (s : State) (x : Clock) (d : Chan) : (s.withClock x).lastTop d = s.lastTop d := rfl
@[simp] theorem State.withTimebase_lastTop (s : State) (x : Timebase) (d : Chan) : (s.withTimebase x).lastTop d = s.lastTop d := rfl
@[simp] theorem State.withPins_lastTop (s : State) (x : Pins) (d : Chan) : (s.withPins x).lastTop d = s.lastTop d := rfl
@[simp] theorem State.withPolicy_lastTop (s : State) (x : BitVec 4) (d : Chan) : (s.withPolicy x).lastTop d = s.lastTop d := rfl
@[simp] theorem State.withPort_lastTop (s : State) (p : Port) (x : PortState) (d : Chan) : (s.withPort p x).lastTop d = s.lastTop d := by
  cases p <;> rfl
@[simp] theorem State.irqFollow_lastTop (b s : State) (d : Chan) : (b.irqFollow s).lastTop d = s.lastTop d := rfl

@[simp] theorem State.withSlot_config (s : State) (i : SlotNo) (x : Slot) (d : Chan) : (s.withSlot i x).config d = s.config d := rfl
@[simp] theorem State.withTable_config (s : State) (x : Vector Slot 256) (d : Chan) : (s.withTable x).config d = s.config d := rfl
@[simp] theorem State.withEngine_config (s : State) (x : Engine) (d : Chan) : (s.withEngine x).config d = s.config d := rfl
@[simp] theorem State.withArbiter_config (s : State) (x : Arbiter) (d : Chan) : (s.withArbiter x).config d = s.config d := rfl
@[simp] theorem State.withChannel_config (s : State) (c : Chan) (x : ChannelRun) (d : Chan) : (s.withChannel c x).config d = s.config d := rfl
@[simp] theorem State.withBinding_config (s : State) (k : InputNo) (x : Binding) (d : Chan) : (s.withBinding k x).config d = s.config d := rfl
@[simp] theorem State.withInput_config (s : State) (k : InputNo) (x : InputRun) (d : Chan) : (s.withInput k x).config d = s.config d := rfl
@[simp] theorem State.withAttention_config (s : State) (x : Attention) (d : Chan) : (s.withAttention x).config d = s.config d := rfl
@[simp] theorem State.withPanelBus_config (s : State) (x : PanelBus) (d : Chan) : (s.withPanelBus x).config d = s.config d := rfl
@[simp] theorem State.withDates_config (s : State) (x : DateSet) (d : Chan) : (s.withDates x).config d = s.config d := rfl
@[simp] theorem State.withClock_config (s : State) (x : Clock) (d : Chan) : (s.withClock x).config d = s.config d := rfl
@[simp] theorem State.withTimebase_config (s : State) (x : Timebase) (d : Chan) : (s.withTimebase x).config d = s.config d := rfl
@[simp] theorem State.withPins_config (s : State) (x : Pins) (d : Chan) : (s.withPins x).config d = s.config d := rfl
@[simp] theorem State.withPolicy_config (s : State) (x : BitVec 4) (d : Chan) : (s.withPolicy x).config d = s.config d := rfl
@[simp] theorem State.withPort_config (s : State) (p : Port) (x : PortState) (d : Chan) : (s.withPort p x).config d = s.config d := by
  cases p <;> rfl
@[simp] theorem State.irqFollow_config (b s : State) (d : Chan) : (b.irqFollow s).config d = s.config d := rfl

@[simp] theorem State.withSlot_channel (s : State) (i : SlotNo) (x : Slot) (d : Chan) : (s.withSlot i x).channel d = s.channel d := rfl
@[simp] theorem State.withTable_channel (s : State) (x : Vector Slot 256) (d : Chan) : (s.withTable x).channel d = s.channel d := rfl
@[simp] theorem State.withEngine_channel (s : State) (x : Engine) (d : Chan) : (s.withEngine x).channel d = s.channel d := rfl
@[simp] theorem State.withArbiter_channel (s : State) (x : Arbiter) (d : Chan) : (s.withArbiter x).channel d = s.channel d := rfl
@[simp] theorem State.withConfig_channel (s : State) (c : Chan) (x : ChannelConfig) (d : Chan) : (s.withConfig c x).channel d = s.channel d := rfl
@[simp] theorem State.withBinding_channel (s : State) (k : InputNo) (x : Binding) (d : Chan) : (s.withBinding k x).channel d = s.channel d := rfl
@[simp] theorem State.withInput_channel (s : State) (k : InputNo) (x : InputRun) (d : Chan) : (s.withInput k x).channel d = s.channel d := rfl
@[simp] theorem State.withAttention_channel (s : State) (x : Attention) (d : Chan) : (s.withAttention x).channel d = s.channel d := rfl
@[simp] theorem State.withPanelBus_channel (s : State) (x : PanelBus) (d : Chan) : (s.withPanelBus x).channel d = s.channel d := rfl
@[simp] theorem State.withDates_channel (s : State) (x : DateSet) (d : Chan) : (s.withDates x).channel d = s.channel d := rfl
@[simp] theorem State.withClock_channel (s : State) (x : Clock) (d : Chan) : (s.withClock x).channel d = s.channel d := rfl
@[simp] theorem State.withTimebase_channel (s : State) (x : Timebase) (d : Chan) : (s.withTimebase x).channel d = s.channel d := rfl
@[simp] theorem State.withPins_channel (s : State) (x : Pins) (d : Chan) : (s.withPins x).channel d = s.channel d := rfl
@[simp] theorem State.withPolicy_channel (s : State) (x : BitVec 4) (d : Chan) : (s.withPolicy x).channel d = s.channel d := rfl
@[simp] theorem State.withPort_channel (s : State) (p : Port) (x : PortState) (d : Chan) : (s.withPort p x).channel d = s.channel d := by
  cases p <;> rfl
@[simp] theorem State.irqFollow_channel (b s : State) (d : Chan) : (b.irqFollow s).channel d = s.channel d := rfl

@[simp] theorem State.withSlot_binding (s : State) (i : SlotNo) (x : Slot) (l : InputNo) : (s.withSlot i x).binding l = s.binding l := rfl
@[simp] theorem State.withTable_binding (s : State) (x : Vector Slot 256) (l : InputNo) : (s.withTable x).binding l = s.binding l := rfl
@[simp] theorem State.withEngine_binding (s : State) (x : Engine) (l : InputNo) : (s.withEngine x).binding l = s.binding l := rfl
@[simp] theorem State.withArbiter_binding (s : State) (x : Arbiter) (l : InputNo) : (s.withArbiter x).binding l = s.binding l := rfl
@[simp] theorem State.withConfig_binding (s : State) (c : Chan) (x : ChannelConfig) (l : InputNo) : (s.withConfig c x).binding l = s.binding l := rfl
@[simp] theorem State.withChannel_binding (s : State) (c : Chan) (x : ChannelRun) (l : InputNo) : (s.withChannel c x).binding l = s.binding l := rfl
@[simp] theorem State.withInput_binding (s : State) (k : InputNo) (x : InputRun) (l : InputNo) : (s.withInput k x).binding l = s.binding l := rfl
@[simp] theorem State.withAttention_binding (s : State) (x : Attention) (l : InputNo) : (s.withAttention x).binding l = s.binding l := rfl
@[simp] theorem State.withPanelBus_binding (s : State) (x : PanelBus) (l : InputNo) : (s.withPanelBus x).binding l = s.binding l := rfl
@[simp] theorem State.withDates_binding (s : State) (x : DateSet) (l : InputNo) : (s.withDates x).binding l = s.binding l := rfl
@[simp] theorem State.withClock_binding (s : State) (x : Clock) (l : InputNo) : (s.withClock x).binding l = s.binding l := rfl
@[simp] theorem State.withTimebase_binding (s : State) (x : Timebase) (l : InputNo) : (s.withTimebase x).binding l = s.binding l := rfl
@[simp] theorem State.withPins_binding (s : State) (x : Pins) (l : InputNo) : (s.withPins x).binding l = s.binding l := rfl
@[simp] theorem State.withPolicy_binding (s : State) (x : BitVec 4) (l : InputNo) : (s.withPolicy x).binding l = s.binding l := rfl
@[simp] theorem State.withPort_binding (s : State) (p : Port) (x : PortState) (l : InputNo) : (s.withPort p x).binding l = s.binding l := by
  cases p <;> rfl
@[simp] theorem State.irqFollow_binding (b s : State) (l : InputNo) : (b.irqFollow s).binding l = s.binding l := rfl

@[simp] theorem State.withSlot_input (s : State) (i : SlotNo) (x : Slot) (l : InputNo) : (s.withSlot i x).input l = s.input l := rfl
@[simp] theorem State.withTable_input (s : State) (x : Vector Slot 256) (l : InputNo) : (s.withTable x).input l = s.input l := rfl
@[simp] theorem State.withEngine_input (s : State) (x : Engine) (l : InputNo) : (s.withEngine x).input l = s.input l := rfl
@[simp] theorem State.withArbiter_input (s : State) (x : Arbiter) (l : InputNo) : (s.withArbiter x).input l = s.input l := rfl
@[simp] theorem State.withConfig_input (s : State) (c : Chan) (x : ChannelConfig) (l : InputNo) : (s.withConfig c x).input l = s.input l := rfl
@[simp] theorem State.withChannel_input (s : State) (c : Chan) (x : ChannelRun) (l : InputNo) : (s.withChannel c x).input l = s.input l := rfl
@[simp] theorem State.withBinding_input (s : State) (k : InputNo) (x : Binding) (l : InputNo) : (s.withBinding k x).input l = s.input l := rfl
@[simp] theorem State.withAttention_input (s : State) (x : Attention) (l : InputNo) : (s.withAttention x).input l = s.input l := rfl
@[simp] theorem State.withPanelBus_input (s : State) (x : PanelBus) (l : InputNo) : (s.withPanelBus x).input l = s.input l := rfl
@[simp] theorem State.withDates_input (s : State) (x : DateSet) (l : InputNo) : (s.withDates x).input l = s.input l := rfl
@[simp] theorem State.withClock_input (s : State) (x : Clock) (l : InputNo) : (s.withClock x).input l = s.input l := rfl
@[simp] theorem State.withTimebase_input (s : State) (x : Timebase) (l : InputNo) : (s.withTimebase x).input l = s.input l := rfl
@[simp] theorem State.withPins_input (s : State) (x : Pins) (l : InputNo) : (s.withPins x).input l = s.input l := rfl
@[simp] theorem State.withPolicy_input (s : State) (x : BitVec 4) (l : InputNo) : (s.withPolicy x).input l = s.input l := rfl
@[simp] theorem State.withPort_input (s : State) (p : Port) (x : PortState) (l : InputNo) : (s.withPort p x).input l = s.input l := by
  cases p <;> rfl
@[simp] theorem State.irqFollow_input (b s : State) (l : InputNo) : (b.irqFollow s).input l = s.input l := rfl

@[simp] theorem State.withSlot_port (s : State) (i : SlotNo) (x : Slot) (q : Port) : (s.withSlot i x).port q = s.port q := by
  cases q <;> rfl
@[simp] theorem State.withTable_port (s : State) (x : Vector Slot 256) (q : Port) : (s.withTable x).port q = s.port q := by
  cases q <;> rfl
@[simp] theorem State.withEngine_port (s : State) (x : Engine) (q : Port) : (s.withEngine x).port q = s.port q := by
  cases q <;> rfl
@[simp] theorem State.withArbiter_port (s : State) (x : Arbiter) (q : Port) : (s.withArbiter x).port q = s.port q := by
  cases q <;> rfl
@[simp] theorem State.withConfig_port (s : State) (c : Chan) (x : ChannelConfig) (q : Port) : (s.withConfig c x).port q = s.port q := by
  cases q <;> rfl
@[simp] theorem State.withChannel_port (s : State) (c : Chan) (x : ChannelRun) (q : Port) : (s.withChannel c x).port q = s.port q := by
  cases q <;> rfl
@[simp] theorem State.withBinding_port (s : State) (k : InputNo) (x : Binding) (q : Port) : (s.withBinding k x).port q = s.port q := by
  cases q <;> rfl
@[simp] theorem State.withInput_port (s : State) (k : InputNo) (x : InputRun) (q : Port) : (s.withInput k x).port q = s.port q := by
  cases q <;> rfl
@[simp] theorem State.withAttention_port (s : State) (x : Attention) (q : Port) : (s.withAttention x).port q = s.port q := by
  cases q <;> rfl
@[simp] theorem State.withPanelBus_port (s : State) (x : PanelBus) (q : Port) : (s.withPanelBus x).port q = s.port q := by
  cases q <;> rfl
@[simp] theorem State.withDates_port (s : State) (x : DateSet) (q : Port) : (s.withDates x).port q = s.port q := by
  cases q <;> rfl
@[simp] theorem State.withClock_port (s : State) (x : Clock) (q : Port) : (s.withClock x).port q = s.port q := by
  cases q <;> rfl
@[simp] theorem State.withTimebase_port (s : State) (x : Timebase) (q : Port) : (s.withTimebase x).port q = s.port q := by
  cases q <;> rfl
@[simp] theorem State.withPins_port (s : State) (x : Pins) (q : Port) : (s.withPins x).port q = s.port q := by
  cases q <;> rfl
@[simp] theorem State.withPolicy_port (s : State) (x : BitVec 4) (q : Port) : (s.withPolicy x).port q = s.port q := by
  cases q <;> rfl
@[simp] theorem State.irqFollow_port (b s : State) (q : Port) : (b.irqFollow s).port q = s.port q := by
  cases q <;> rfl

@[simp] theorem State.withSlot_running (s : State) (i : SlotNo) (x : Slot) : (s.withSlot i x).running = s.running := rfl
@[simp] theorem State.withTable_running (s : State) (x : Vector Slot 256) : (s.withTable x).running = s.running := rfl
@[simp] theorem State.withEngine_running (s : State) (x : Engine) : (s.withEngine x).running = s.running := rfl
@[simp] theorem State.withArbiter_running (s : State) (x : Arbiter) : (s.withArbiter x).running = s.running := rfl
@[simp] theorem State.withConfig_running (s : State) (c : Chan) (x : ChannelConfig) : (s.withConfig c x).running = s.running := rfl
@[simp] theorem State.withChannel_running (s : State) (c : Chan) (x : ChannelRun) : (s.withChannel c x).running = s.running := rfl
@[simp] theorem State.withBinding_running (s : State) (k : InputNo) (x : Binding) : (s.withBinding k x).running = s.running := rfl
@[simp] theorem State.withInput_running (s : State) (k : InputNo) (x : InputRun) : (s.withInput k x).running = s.running := rfl
@[simp] theorem State.withAttention_running (s : State) (x : Attention) : (s.withAttention x).running = s.running := rfl
@[simp] theorem State.withPanelBus_running (s : State) (x : PanelBus) : (s.withPanelBus x).running = s.running := rfl
@[simp] theorem State.withDates_running (s : State) (x : DateSet) : (s.withDates x).running = s.running := rfl
@[simp] theorem State.withClock_running (s : State) (x : Clock) : (s.withClock x).running = s.running := rfl
@[simp] theorem State.withTimebase_running (s : State) (x : Timebase) : (s.withTimebase x).running = s.running := rfl
@[simp] theorem State.withPins_running (s : State) (x : Pins) : (s.withPins x).running = s.running := rfl
@[simp] theorem State.withPolicy_running (s : State) (x : BitVec 4) : (s.withPolicy x).running = s.running := rfl
@[simp] theorem State.withPort_running (s : State) (p : Port) (x : PortState) : (s.withPort p x).running = s.running := by
  cases p <;> rfl
@[simp] theorem State.irqFollow_running (b s : State) : (b.irqFollow s).running = s.running := rfl

end Sys2Proof.Machine
end

