-- ==== Sys2Proof/Laws/Frames.lean ====
section
/-! SUPPORT. What the shared steps of the blocks can touch at all: every step on an entry, a claim list or a notice set changes at
most the table, the attention unit, the arbiter and the channels' runtime, and every step of the engine's work at most the
engine beside them. A proof about another field cites these and unfolds no step. -/

namespace Sys2Proof.Machine

/-- `t` differs from `s` at most in the table, the attention unit, the arbiter and the channels' runtime. -/
def EvalStep (s t : State) : Prop :=
  ∃ (tb : Vector Slot 256) (att : Attention) (arb : Arbiter) (ch : Vector ChannelRun 24),
    t = { s with table := tb, attention := att, arbiter := arb, channels := ch }

theorem EvalStep.refl (s : State) : EvalStep s s :=
  ⟨s.table, s.attention, s.arbiter, s.channels, rfl⟩

theorem EvalStep.trans {s t u : State} (h : EvalStep s t) (k : EvalStep t u) : EvalStep s u := by
  obtain ⟨tb, att, arb, ch, rfl⟩ := h
  obtain ⟨tb', att', arb', ch', rfl⟩ := k
  exact ⟨tb', att', arb', ch', rfl⟩

/-- Every field outside the four is kept. -/
theorem EvalStep.kept {s t : State} (h : EvalStep s t) :
    t = { s with table := t.table, attention := t.attention, arbiter := t.arbiter, channels := t.channels } := by
  obtain ⟨tb, att, arb, ch, rfl⟩ := h
  rfl

theorem EvalStep.engine {s t : State} (h : EvalStep s t) : t.engine = s.engine := by
  obtain ⟨tb, att, arb, ch, rfl⟩ := h
  rfl

theorem EvalStep.clock {s t : State} (h : EvalStep s t) : t.clock = s.clock := by
  obtain ⟨tb, att, arb, ch, rfl⟩ := h
  rfl

theorem EvalStep.dates {s t : State} (h : EvalStep s t) : t.dates = s.dates := by
  obtain ⟨tb, att, arb, ch, rfl⟩ := h
  rfl

theorem EvalStep.configs {s t : State} (h : EvalStep s t) : t.configs = s.configs := by
  obtain ⟨tb, att, arb, ch, rfl⟩ := h
  rfl

theorem EvalStep.port {s t : State} (h : EvalStep s t) (p : Port) : t.port p = s.port p := by
  obtain ⟨tb, att, arb, ch, rfl⟩ := h
  cases p <;> rfl

theorem EvalStep.running {s t : State} (h : EvalStep s t) : t.running = s.running := by
  obtain ⟨tb, att, arb, ch, rfl⟩ := h
  rfl

theorem EvalStep.pending {s t : State} (h : EvalStep s t) : t.pending = s.pending := by
  obtain ⟨tb, att, arb, ch, rfl⟩ := h
  rfl

/-! ### The base steps -/

theorem withAttention_eval (s : State) (a : Attention) : EvalStep s (s.withAttention a) :=
  ⟨s.table, a, s.arbiter, s.channels, rfl⟩

theorem withArbiter_eval (s : State) (a : Arbiter) : EvalStep s (s.withArbiter a) :=
  ⟨s.table, s.attention, a, s.channels, rfl⟩

theorem withChannel_eval (s : State) (c : Chan) (run : ChannelRun) : EvalStep s (s.withChannel c run) :=
  ⟨s.table, s.attention, s.arbiter, s.channels.set c run, rfl⟩

theorem withSlot_eval (s : State) (i : SlotNo) (x : Slot) : EvalStep s (s.withSlot i x) :=
  ⟨s.table.set i x, s.attention, s.arbiter, s.channels, rfl⟩

theorem withTable_eval (s : State) (x : Vector Slot 256) : EvalStep s (s.withTable x) :=
  ⟨x, s.attention, s.arbiter, s.channels, rfl⟩

/-- IRQN following an arrival changes the attention unit alone. -/
theorem irqFollow_eval {b s t : State} (h : EvalStep s t) : EvalStep s (b.irqFollow t) :=
  h.trans (withAttention_eval t _)

/-! ### Notices -/

theorem raiseEntry_eval (s : State) (i : SlotNo) (cause : EntryCause) : EvalStep s (s.raiseEntry i cause) := by
  unfold State.raiseEntry
  split
  · exact EvalStep.refl s
  · split
    · exact EvalStep.refl s
    · exact irqFollow_eval (withAttention_eval s _)

theorem dropEntryNotice_eval (s : State) (i : SlotNo) : EvalStep s (s.dropEntryNotice i) :=
  irqFollow_eval (withAttention_eval s _)

theorem raiseChannel_eval (s : State) (c : Chan) (cause : ChannelCause) : EvalStep s (s.raiseChannel c cause) :=
  irqFollow_eval (withAttention_eval s _)

theorem raiseTick_eval (s : State) : EvalStep s s.raiseTick :=
  irqFollow_eval (withAttention_eval s _)

theorem raiseInvalid_eval (s : State) : EvalStep s s.raiseInvalid :=
  irqFollow_eval (withAttention_eval s _)

theorem tickAt_eval (s : State) (minute : Bool) : EvalStep s (s.tickAt minute) := by
  unfold State.tickAt
  split
  · exact raiseTick_eval s
  · exact EvalStep.refl s

/-! ### Claim lists -/

theorem reportTop_eval (s : State) (c : Chan) : EvalStep s (s.reportTop c) :=
  (withArbiter_eval s _).trans (withChannel_eval _ c _)

theorem setList_eval (s : State) (c : Chan) (l : List Claim) : EvalStep s (s.setList c l) := by
  unfold State.setList
  split
  · exact withArbiter_eval s _
  · dsimp only
    split
    · exact withArbiter_eval s _
    · exact (withArbiter_eval s _).trans (reportTop_eval _ c)

theorem remove_eval (s : State) (c : Chan) (src : Source) : EvalStep s (s.remove c src) :=
  setList_eval s c _

/-- A fold of steps that touch no more than an evaluation touches no more. -/
theorem foldl_eval {α : Type} (f : State → α → State) (hf : ∀ s a, EvalStep s (f s a)) (l : List α) (s : State) :
    EvalStep s (l.foldl f s) := by
  induction l generalizing s with
  | nil => exact EvalStep.refl s
  | cons a as ih => exact (hf s a).trans (ih (f s a))

theorem flushBatch_eval (s : State) : EvalStep s s.flushBatch := by
  refine (foldl_eval _ (fun t c => ?_) allChannels s).trans (withArbiter_eval _ _)
  split
  · exact reportTop_eval t c
  · exact EvalStep.refl t

theorem setHeld_eval (s : State) (i : SlotNo) (held : Bool) : EvalStep s (s.setHeld i held) := by
  unfold State.setHeld
  split
  · exact EvalStep.refl s
  · exact withSlot_eval s i _

theorem displace_eval (s : State) (c : Chan) (claim : Claim) : EvalStep s (s.displace c claim) := by
  unfold State.displace
  split
  · exact (setHeld_eval s _ _).trans (raiseEntry_eval _ _ _)
  · exact raiseChannel_eval s c _
  · exact raiseChannel_eval s c _

theorem place_eval (s : State) (c : Chan) (claim : Claim) : EvalStep s (s.place c claim) := by
  unfold State.place
  dsimp only
  split
  · exact setList_eval s c _
  · exact (setList_eval s c _).trans (displace_eval _ c _)

theorem placeEntryClaim_eval (s : State) (i : SlotNo) : EvalStep s (s.placeEntryClaim i) := by
  unfold State.placeEntryClaim
  split
  · exact EvalStep.refl s
  · split
    · exact (place_eval s _ _).trans (setHeld_eval _ _ _)
    · exact (setHeld_eval s _ _).trans (raiseEntry_eval _ _ _)

theorem withdrawEntryClaim_eval (s : State) (i : SlotNo) : EvalStep s (s.withdrawEntryClaim i) := by
  unfold State.withdrawEntryClaim
  split
  · exact EvalStep.refl s
  · split
    · exact remove_eval s _ _
    · exact EvalStep.refl s

/-! ### Steps on one entry -/

theorem freeSlot_eval (s : State) (i : SlotNo) : EvalStep s (s.freeSlot i) :=
  (withSlot_eval s i _).trans (dropEntryNotice_eval _ i)

theorem autofreeSpent_eval (s : State) (i : SlotNo) : EvalStep s (s.autofreeSpent i) := by
  unfold State.autofreeSpent
  split
  · exact EvalStep.refl s
  · split
    · exact freeSlot_eval s i
    · exact EvalStep.refl s

theorem enteredSpent_eval (s : State) (i : SlotNo) : EvalStep s (s.enteredSpent i) :=
  (raiseEntry_eval s i _).trans (autofreeSpent_eval _ i)

theorem spendArmed_eval (s : State) (i : SlotNo) : EvalStep s (s.spendArmed i) := by
  unfold State.spendArmed
  split
  · exact EvalStep.refl s
  · exact (withSlot_eval s i _).trans (enteredSpent_eval _ i)

theorem endOccurrence_eval (s : State) (i : SlotNo) : EvalStep s (s.endOccurrence i) := by
  unfold State.endOccurrence
  split
  · exact EvalStep.refl s
  · have h := (withdrawEntryClaim_eval s i).trans (raiseEntry_eval _ i .ended)
    dsimp only
    split
    · exact (h.trans (withSlot_eval _ i _)).trans (enteredSpent_eval _ i)
    · exact h.trans (withSlot_eval _ i _)

theorem activate_eval (s : State) (i : SlotNo) (d : Date) : EvalStep s (s.activate i d) := by
  unfold State.activate
  split
  · exact EvalStep.refl s
  · exact ((withSlot_eval s i _).trans (raiseEntry_eval _ i _)).trans (placeEntryClaim_eval _ i)

theorem rejoinEntry_eval (s : State) (i : SlotNo) (close : Minute) : EvalStep s (s.rejoinEntry i close) := by
  unfold State.rejoinEntry
  split
  · exact EvalStep.refl s
  · exact (withSlot_eval s i _).trans (placeEntryClaim_eval _ i)

theorem closeAdmission_eval (s : State) (i : SlotNo) : EvalStep s (s.closeAdmission i) := by
  unfold State.closeAdmission
  split
  · exact EvalStep.refl s
  · exact withSlot_eval s i _

theorem setFinal_eval (s : State) (i : SlotNo) : EvalStep s (s.setFinal i) := by
  unfold State.setFinal
  split
  · exact EvalStep.refl s
  · exact withSlot_eval s i _

/-! ### Admission -/

theorem admitSteps_eval (s : State) (i : SlotNo) (e : Entry) (m : Minute) : EvalStep s (s.admitSteps i e m) := by
  unfold State.admitSteps
  split
  · exact rejoinEntry_eval s i _
  · split
    · exact spendArmed_eval s i
    · split
      · exact activate_eval s i _
      · exact EvalStep.refl s

theorem admit_eval (s : State) (i : SlotNo) (m : Minute) : EvalStep s (s.admitOne i m) := by
  unfold State.admitOne
  split
  · exact EvalStep.refl s
  · exact (admitSteps_eval s i _ m).trans (closeAdmission_eval _ i)

theorem admitAfterCommand_eval (s : State) (i : SlotNo) : EvalStep s (s.admitAfterCommand i) := by
  unfold State.admitAfterCommand
  split
  · exact EvalStep.refl s
  · split
    · exact admit_eval s i _
    · split
      · exact admit_eval s i _
      · exact EvalStep.refl s
    · exact EvalStep.refl s

/-! ### Visits -/

theorem startCheck_eval (s : State) (i : SlotNo) (e : Entry) (m : Minute) : EvalStep s (s.startCheck i e m) := by
  unfold State.startCheck
  split
  · exact spendArmed_eval s i
  · split
    · exact activate_eval s i _
    · exact EvalStep.refl s

theorem endCheck_eval (s : State) (i : SlotNo) (e : Entry) (m : Minute) : EvalStep s (s.endCheck i e m) := by
  unfold State.endCheck
  split
  · split
    · exact endOccurrence_eval s i
    · exact EvalStep.refl s
  · exact EvalStep.refl s

theorem sweepSlot_eval (s : State) (i : SlotNo) (m : Minute) : EvalStep s (s.sweepSlot i m) := by
  unfold State.sweepSlot
  split
  · exact EvalStep.refl s
  · dsimp only
    split
    · exact EvalStep.refl s
    · exact EvalStep.refl s
    · split
      · exact spendArmed_eval s i
      · split
        · exact admit_eval s i m
        · exact startCheck_eval s i _ m
    · refine EvalStep.trans ?_ (endCheck_eval _ i _ m)
      split
      · exact setFinal_eval s i
      · exact EvalStep.refl s

theorem resyncArmedSteps_eval (s : State) (i : SlotNo) (e : Entry) (t : Moment) (k : Skipped) :
    EvalStep s (s.resyncArmedSteps i e t k) := by
  unfold State.resyncArmedSteps
  split
  · exact spendArmed_eval s i
  · split
    · exact rejoinEntry_eval s i _
    · split
      · exact spendArmed_eval s i
      · split
        · unfold State.resyncArmedSpan
          split
          · exact activate_eval s i _
          · split
            · exact raiseEntry_eval s i _
            · exact EvalStep.refl s
        · unfold State.resyncArmedEvent
          split
          · split
            · exact activate_eval s i _
            · split
              · split
                · exact activate_eval s i _
                · exact raiseEntry_eval s i _
              · exact EvalStep.refl s
          · exact EvalStep.refl s

theorem resyncArmed_eval (s : State) (i : SlotNo) (t : Moment) (k : Skipped) : EvalStep s (s.resyncArmed i t k) := by
  unfold State.resyncArmed
  split
  · exact EvalStep.refl s
  · exact (resyncArmedSteps_eval s i _ t k).trans (closeAdmission_eval _ i)

theorem endAndContinue_eval (s : State) (i : SlotNo) (t : Moment) (k : Skipped) : EvalStep s (s.endAndContinue i t k) := by
  have h := endOccurrence_eval s i
  unfold State.endAndContinue
  dsimp only
  split
  · exact h
  · split
    · exact h.trans (resyncArmed_eval _ i t k)
    · exact h
    · exact h
    · exact h

theorem resyncActive_eval (s : State) (i : SlotNo) (t : Moment) (k : Skipped) : EvalStep s (s.resyncActive i t k) := by
  unfold State.resyncActive
  split
  · exact EvalStep.refl s
  · split
    · unfold State.resyncActiveSpan
      split
      · dsimp only
        split
        · exact withSlot_eval s i _
        · exact (withSlot_eval s i _).trans (placeEntryClaim_eval _ i)
      · exact endAndContinue_eval s i t k
    · unfold State.resyncActiveEvent
      split
      · exact endAndContinue_eval s i t k
      · exact EvalStep.refl s

theorem resyncSlot_eval (s : State) (i : SlotNo) (t : Moment) (k : Skipped) : EvalStep s (s.resyncSlot i t k) := by
  unfold State.resyncSlot
  split
  · exact EvalStep.refl s
  · split
    · exact EvalStep.refl s
    · exact EvalStep.refl s
    · exact resyncArmed_eval s i t k
    · refine EvalStep.trans ?_ (resyncActive_eval _ i t k)
      split
      · exact setFinal_eval s i
      · exact EvalStep.refl s

/-! ### Table commands -/

theorem freeAfterModify_eval (s : State) (i : SlotNo) : EvalStep s (s.freeAfterModify i) := by
  unfold State.freeAfterModify
  split
  · exact EvalStep.refl s
  · split
    · exact freeSlot_eval s i
    · exact EvalStep.refl s

theorem updateEntryClaim_eval (s : State) (i : SlotNo) (e : Entry) (d : Definition) :
    EvalStep s (s.updateEntryClaim i e d) := by
  unfold State.updateEntryClaim
  split
  · exact setList_eval s _ _
  · exact EvalStep.refl s

theorem modify_eval (s : State) (i : SlotNo) (e : Entry) (d : Definition) : EvalStep s (s.modify i e d) := by
  unfold State.modify
  split
  · exact EvalStep.refl s
  · split
    · exact ((withSlot_eval s i _).trans (updateEntryClaim_eval _ i e d)).trans (freeAfterModify_eval _ i)
    · have h := (withdrawEntryClaim_eval s i).trans (withSlot_eval _ i { gen := ((s.withdrawEntryClaim i).slot i).gen + 1, entry := some (e.retimed d) })
      unfold State.modifyTiming State.stepEntry
      dsimp only
      split <;> split
      · exact h.trans (raiseEntry_eval _ i _)
      · exact h
      · exact (h.trans (raiseEntry_eval _ i _)).trans (admitAfterCommand_eval _ i)
      · exact h.trans (admitAfterCommand_eval _ i)

theorem suspendActive_eval (s : State) (i : SlotNo) (e : Entry) : EvalStep s (s.suspendActive i e) :=
  ((withdrawEntryClaim_eval s i).trans (raiseEntry_eval _ i _)).trans (withSlot_eval _ i _)

theorem resume_eval (s : State) (i : SlotNo) (e : Entry) (rejoin : Bool) : EvalStep s (s.resume i e rejoin) :=
  (withSlot_eval s i _).trans (admitAfterCommand_eval _ i)

theorem deleteSlot_eval (s : State) (i : SlotNo) : EvalStep s (s.deleteSlot i) :=
  (withdrawEntryClaim_eval s i).trans (freeSlot_eval _ i)

theorem wipeSlotStep_eval (s : State) (i : SlotNo) : EvalStep s (s.wipeSlotStep i) := by
  unfold State.wipeSlotStep
  split
  · exact EvalStep.refl s
  · exact deleteSlot_eval s i

/-! ### The engine's work: the engine may change too -/

/-- `t` differs from `s` at most in the engine and in what an evaluation touches. -/
def WorkStep (s t : State) : Prop :=
  ∃ (eng : Engine) (u : State), EvalStep s u ∧ t = { u with engine := eng }

theorem EvalStep.toWork {s t : State} (h : EvalStep s t) : WorkStep s t :=
  ⟨t.engine, t, h, rfl⟩

theorem WorkStep.trans {s t u : State} (h : WorkStep s t) (k : WorkStep t u) : WorkStep s u := by
  obtain ⟨eng, v, ⟨tb, att, arb, ch, rfl⟩, rfl⟩ := h
  obtain ⟨eng', v', ⟨tb', att', arb', ch', rfl⟩, rfl⟩ := k
  exact ⟨eng', _, ⟨tb', att', arb', ch', rfl⟩, rfl⟩

/-- Every field outside the five is kept. -/
theorem WorkStep.kept {s t : State} (h : WorkStep s t) :
    t = { s with engine := t.engine, table := t.table, attention := t.attention, arbiter := t.arbiter,
                 channels := t.channels } := by
  obtain ⟨eng, v, ⟨tb, att, arb, ch, rfl⟩, rfl⟩ := h
  rfl

theorem WorkStep.pending {s t : State} (h : WorkStep s t) : t.pending = s.pending := by
  rw [h.kept]

theorem WorkStep.port {s t : State} (h : WorkStep s t) (p : Port) : t.port p = s.port p := by
  rw [h.kept]
  cases p <;> rfl

theorem withEngine_work (s : State) (e : Engine) : WorkStep s (s.withEngine e) :=
  ⟨e, s, EvalStep.refl s, rfl⟩

theorem startSweep_work (s : State) : WorkStep s s.startSweep :=
  withEngine_work s _

theorem startResync_work (s : State) : WorkStep s s.startResync :=
  withEngine_work s _

theorem requestResync_work (s : State) : WorkStep s s.requestResync := by
  unfold State.requestResync
  split
  · exact withEngine_work s _
  · exact startResync_work s

theorem engineBoundary_work (s : State) : WorkStep s s.engineBoundary := by
  unfold State.engineBoundary
  split
  · exact withEngine_work s _
  · exact startSweep_work s

theorem completeWork_work (s : State) (m : Minute) : WorkStep s (s.completeWork m) := by
  unfold State.completeWork
  have h := (withEngine_work s { s.engine with work := .idle, lastEvaluated := some m }).trans (flushBatch_eval _).toWork
  dsimp only
  split
  · exact h.trans (startSweep_work _)
  · exact h

theorem afterWipe_work (s : State) : WorkStep s s.afterWipe := by
  unfold State.afterWipe
  split
  · exact startResync_work s
  · split
    · exact startSweep_work s
    · exact WorkStep.trans (EvalStep.refl s).toWork (EvalStep.refl s).toWork

/-! ### The step of an empty queue -/

/-- When a second boundary is due: the divider of a powered, RUNNING timebase has completed a second. -/
theorem secondDue_iff (s : State) :
    s.secondDue = true ↔ s.supply ≠ .cold ∧ s.timebase.state = .running ∧ 100 ≤ s.timebase.subSecond := by
  simp [State.secondDue, and_assoc]

/-- A second boundary that is not due does not come (R149, R160, R161). -/
theorem secondBoundary_of_not_due {s : State} (h : s.secondDue = false) : s.secondBoundary = s := by
  simp [State.secondBoundary, h]

/-- The due rows are the due expiries and the second boundary. -/
theorem mem_dueRows {i : Instr} {s : State} :
    i ∈ s.dueRows ↔ i ∈ s.dueExpiries ∨ i = .secondBoundary ∧ s.secondDue = true := by
  simp [State.dueRows, and_comm]

/-- A tick can touch the timebase's dividers and the ticks left of the channels and inputs, and nothing else (R121, R149). -/
theorem tick_touches (s : State) :
    ∃ (tb : Timebase) (ch : Vector ChannelRun 24) (inp : Vector InputRun 8),
      s.tick = { s with timebase := tb, channels := ch, inputs := inp } ∧ tb.state = s.timebase.state := by
  unfold State.tick
  split
  · exact ⟨s.timebase, s.channels, s.inputs, rfl, rfl⟩
  · split
    · exact ⟨s.timebase.tick, _, _, rfl, rfl⟩
    · exact ⟨s.timebase.tick, s.channels, s.inputs, rfl, rfl⟩

/-- What the step of an empty queue can do: a tick where no row is due, and otherwise the due rows join the queue. -/
theorem idleStep_cases (s : State) :
    s.dueRows = [] ∧ s.idleStep = s.tick ∨ s.dueRows ≠ [] ∧ s.idleStep = { s with pending := s.dueRows } := by
  unfold State.idleStep
  split
  · rename_i h
    exact .inl ⟨h, rfl⟩
  · rename_i h
    exact .inr ⟨by rw [h]; simp, by rw [h]⟩

end Sys2Proof.Machine
end

