-- ==== Sys2Proof/Laws/Lists.lean ====
section
/-! SUPPORT. What the list operations of the arbiter can do: what an insertion, a removal and a placement leave in a claim list
(R94 to R98). -/

namespace Sys2Proof.Machine

theorem mem_insertClaim {c d : Claim} {l : List Claim} : d ∈ insertClaim c l ↔ d = c ∨ d ∈ l := by
  induction l with
  | nil => simp [insertClaim]
  | cons e es ih =>
    unfold insertClaim
    split
    · simp
    · simp [ih]
      tauto

theorem length_insertClaim (c : Claim) (l : List Claim) : (insertClaim c l).length = l.length + 1 := by
  induction l with
  | nil => rfl
  | cons e es ih =>
    unfold insertClaim
    split
    · rfl
    · simp [ih]

/-- An insertion is the old list with the claim put in somewhere. -/
theorem insertClaim_perm (c : Claim) (l : List Claim) : (insertClaim c l).Perm (c :: l) := by
  induction l with
  | nil => exact List.Perm.refl _
  | cons e es ih =>
    unfold insertClaim
    split
    · exact List.Perm.refl _
    · exact (ih.cons e).trans (List.Perm.swap c e es)

theorem le_foldl_order (l : List Claim) (n : Nat) : n ≤ l.foldl (fun n c => max n (c.order + 1)) n := by
  induction l generalizing n with
  | nil => exact Nat.le_refl n
  | cons c cs ih => exact (Nat.le_max_left n (c.order + 1)).trans (ih _)

theorem order_lt_foldl {l : List Claim} {c : Claim} (h : c ∈ l) (n : Nat) :
    c.order < l.foldl (fun n c => max n (c.order + 1)) n := by
  induction l generalizing n with
  | nil => cases h
  | cons d ds ih =>
    rcases List.mem_cons.mp h with rfl | h
    · exact (Nat.lt_of_lt_of_le (Nat.lt_succ_self _) (Nat.le_max_right n _)).trans_le (le_foldl_order ds _)
    · exact ih h _

/-- A newcomer's placement order is later than that of every claim in the list (R94). -/
theorem order_lt_nextOrder {l : List Claim} {c : Claim} (h : c ∈ l) : c.order < nextOrder l :=
  order_lt_foldl h 0

theorem dropSource_sublist (l : List Claim) (src : Source) : (dropSource l src).Sublist l :=
  List.filter_sublist

theorem dropUntilEdge_sublist (l : List Claim) : (dropUntilEdge l).Sublist l :=
  List.filter_sublist

theorem mem_dropSource {l : List Claim} {src : Source} {c : Claim} : c ∈ dropSource l src ↔ c ∈ l ∧ c.source ≠ src := by
  simp [dropSource]

theorem mem_dropUntilEdge {l : List Claim} {c : Claim} : c ∈ dropUntilEdge l ↔ c ∈ l ∧ c.lifetime.isUntilEdge = false := by
  simp [dropUntilEdge]

/-- A removal leaves a part of the list, in its order (R98). -/
theorem removeFromList_sublist (l : List Claim) (src : Source) : (removeFromList l src).Sublist l := by
  unfold removeFromList
  split
  · exact List.Sublist.refl l
  · split
    · exact (dropUntilEdge_sublist _).trans (dropSource_sublist l src)
    · exact dropSource_sublist l src

/-- A removal by a source that holds no claim leaves the list as it was (R98). -/
theorem removeFromList_absent {l : List Claim} {src : Source} (h : claimOf l src = none) : removeFromList l src = l := by
  unfold removeFromList
  rw [h]

/-- A source without a claim in a list. -/
theorem claimOf_eq_none {l : List Claim} {src : Source} : claimOf l src = none ↔ ∀ c ∈ l, c.source ≠ src := by
  simp [claimOf]

/-- After a removal the source holds no claim in the list. -/
theorem claimOf_removeFromList (l : List Claim) (src : Source) : claimOf (removeFromList l src) src = none := by
  rw [claimOf_eq_none]
  intro c hc
  unfold removeFromList at hc
  split at hc
  · next h => exact claimOf_eq_none.mp h c hc
  · split at hc
    · exact (mem_dropSource.mp (mem_dropUntilEdge.mp hc).1).2
    · exact (mem_dropSource.mp hc).2

/-- What is left of the list before the newcomer is inserted is a part of it without the newcomer's source. -/
theorem mem_clearedFor {l : List Claim} {src : Source} {d : Claim} (h : d ∈ clearedFor l src) :
    d ∈ l ∧ d.source ≠ src := by
  unfold clearedFor at h
  obtain ⟨h1, h2⟩ := mem_dropSource.mp h
  refine ⟨?_, h2⟩
  split at h1
  · exact (mem_dropUntilEdge.mp h1).1
  · exact h1

theorem clearedFor_sublist (l : List Claim) (src : Source) : (clearedFor l src).Sublist l := by
  unfold clearedFor
  refine (dropSource_sublist _ src).trans ?_
  split
  · exact dropUntilEdge_sublist l
  · exact List.Sublist.refl l

theorem mem_insertNewest {l : List Claim} {c d : Claim} (h : d ∈ insertNewest l c) : d ∈ l ∨ d = c.newest l := by
  rcases mem_insertClaim.mp h with h | h
  · exact .inr h
  · exact .inl (mem_clearedFor h).1

/-- Everything nine claims can become: the old list when the newcomer is last, and otherwise the first eight, without the
UNTIL_EDGE claims that stood before when the last is an entry's. -/
theorem overflowList_cases (l nine : List Claim) (src : Source) :
    (nine = [] ∧ overflowList l nine src = { list := nine, kept := true, displaced := none }) ∨
      ∃ last, nine.getLast? = some last ∧
        ((last.source = src ∧ overflowList l nine src = { list := l, kept := false, displaced := none }) ∨
          (last.source ≠ src ∧ isEntrySource last.source = true ∧
            overflowList l nine src =
              { list := nine.dropLast.filter fun d => decide (d.source = src) || !d.lifetime.isUntilEdge, kept := true,
                displaced := some last }) ∨
          (last.source ≠ src ∧ isEntrySource last.source = false ∧
            overflowList l nine src = { list := nine.dropLast, kept := true, displaced := some last })) := by
  unfold overflowList
  split
  · next h => exact .inl ⟨List.getLast?_eq_none_iff.mp h, rfl⟩
  · next last h =>
    refine .inr ⟨last, h, ?_⟩
    split
    · next hs => exact .inl ⟨hs, rfl⟩
    · next hs =>
      split
      · next he => exact .inr (.inl ⟨hs, he, rfl⟩)
      · next he => exact .inr (.inr ⟨hs, Bool.eq_false_iff.mpr he, rfl⟩)

/-- A placement that is not kept leaves the list as it was and displaces nothing (R96). -/
theorem placeInList_not_kept {l : List Claim} {c : Claim} (h : (placeInList l c).kept = false) :
    placeInList l c = { list := l, kept := false, displaced := none } := by
  unfold placeInList at h ⊢
  split at h
  · cases h
  · next hlen =>
    rw [if_neg hlen]
    rcases overflowList_cases l (insertNewest l c) c.source with ⟨_, he⟩ | ⟨_, _, ⟨_, he⟩ | ⟨_, _, he⟩ | ⟨_, _, he⟩⟩
    · rw [he] at h; cases h
    · exact he
    · rw [he] at h; cases h
    · rw [he] at h; cases h

/-- A placement leaves only claims that stood before and the newcomer. -/
theorem placeInList_mem {l : List Claim} {c d : Claim} (h : d ∈ (placeInList l c).list) : d ∈ l ∨ d = c.newest l := by
  unfold placeInList at h
  split at h
  · exact mem_insertNewest h
  · rcases overflowList_cases l (insertNewest l c) c.source with ⟨_, he⟩ | ⟨_, _, ⟨_, he⟩ | ⟨_, _, he⟩ | ⟨_, _, he⟩⟩ <;>
      rw [he] at h
    · exact mem_insertNewest h
    · exact .inl h
    · exact mem_insertNewest ((List.dropLast_sublist _).subset (List.mem_of_mem_filter h))
    · exact mem_insertNewest ((List.dropLast_sublist _).subset h)

end Sys2Proof.Machine
end

