-- ==== Sys2Proof/Laws/Effects.lean ====
section
/-! SUPPORT. What the shared steps do, in the terms of Sys2Proof/Safety.lean: a change of a list, a placement with its displacement,
the placement of an entry's claim, an activation, a rejoin, an admission, a withdrawal and the end of an occurrence. Proofs about
commands cite these and unfold no step. -/

namespace Sys2Proof.Machine

/-! ### The output stage -/

/-- A change of the commanded action of a channel in service (R117). -/
theorem ChannelRun.change_eq {run : ChannelRun} (h : run.state ≠ .faulted) (cfg : ChannelConfig) (a : Action) :
    run.change cfg a = ChannelRun.fresh cfg run.pending a := by
  have hs : proofApplies cfg run.state a = proofApplies cfg .normal a := by simp [proofApplies, h]
  by_cases hg : cfg.guardTime = 0#8 <;> cases hp : proofApplies cfg .normal a <;> rw [hp] at hs <;> cases a <;>
    simp [ChannelRun.change, ChannelRun.command, ChannelRun.restartProof, ChannelRun.startGuard, ChannelRun.fresh,
      Action.isSteady, hs, hg, hp]

/-- The output stage's answer to a report (R116). -/
theorem ChannelRun.takeTarget_eq_told (run : ChannelRun) (cfg : ChannelConfig) (a : Action) :
    run.takeTarget cfg a = run.told cfg a := by
  unfold ChannelRun.takeTarget ChannelRun.told
  cases hs : run.state with
  | normal => simp only [ChannelRun.change_eq (run := run) (by rw [hs]; decide)]
  | disabled => rfl
  | guarding => rfl
  | faulted => rfl

/-! ### A change of one list -/

@[simp] theorem State.reportTop_list (s : State) (c d : Chan) : (s.reportTop c).list d = s.list d := rfl

theorem State.list_set_self (s : State) (a : Arbiter) (c : Chan) (l : List Claim) (h : a.lists = s.arbiter.lists.set c l) :
    (s.withArbiter a).list c = l := by
  simp [State.list, h]

theorem State.list_set_ne (s : State) (a : Arbiter) {c d : Chan} (l : List Claim) (h : a.lists = s.arbiter.lists.set c l)
    (hd : d ≠ c) : (s.withArbiter a).list d = s.list d := by
  simp [State.list, h, Vector.getElem_set_ne, Fin.val_ne_of_ne hd.symm]

theorem State.setList_list_self (s : State) (c : Chan) (l : List Claim) : (s.setList c l).list c = l := by
  unfold State.setList
  split
  · exact s.list_set_self _ c l rfl
  · dsimp only
    split
    · exact s.list_set_self _ c l rfl
    · exact s.list_set_self _ c l rfl

theorem State.setList_list_ne (s : State) {c d : Chan} (l : List Claim) (h : d ≠ c) : (s.setList c l).list d = s.list d := by
  unfold State.setList
  split
  · exact s.list_set_ne _ l rfl h
  · dsimp only
    split
    · exact s.list_set_ne _ l rfl h
    · exact s.list_set_ne _ l rfl h

/-- A change of a list leaves the table, the attention unit and the engine alone. -/
theorem State.setList_kept (s : State) (c : Chan) (l : List Claim) :
    s.setList c l = { s with arbiter := (s.setList c l).arbiter, channels := (s.setList c l).channels } := by
  unfold State.setList
  split
  · rfl
  · dsimp only
    split <;> rfl

/-- What follows a change of a list (R68, R109, R116). -/
theorem State.setList_follows (s : State) (c : Chan) (l : List Claim) : s.followsList (s.setList c l) c := by
  unfold State.followsList
  rw [State.setList_list_self]
  unfold State.setList
  split
  · refine ⟨rfl, rfl, ?_⟩
    simp [State.withArbiter]
  · dsimp only
    split
    · next h => exact ⟨h.symm, rfl, rfl⟩
    · next h =>
      refine ⟨?_, rfl, ?_⟩
      · simp [State.reportTop, State.lastTop, State.list, State.withArbiter, State.withChannel]
      · simp [State.reportTop, State.list, State.withArbiter, State.withChannel, State.channel, State.config,
          ChannelRun.takeTarget_eq_told]

theorem State.setList_onlyChannel (s : State) (c : Chan) (l : List Claim) : s.onlyChannel (s.setList c l) c := by
  refine ⟨by rw [State.setList_kept], fun d hd => ⟨s.setList_list_ne l hd, ?_⟩⟩
  have hne : c.val ≠ d.val := Fin.val_ne_of_ne hd.symm
  unfold State.setList
  split
  · exact ⟨rfl, rfl, by simp [State.withArbiter, Vector.getElem_set_ne, hne]⟩
  · dsimp only
    split
    · exact ⟨rfl, rfl, rfl⟩
    · refine ⟨?_, ?_, rfl⟩
      · simp [State.reportTop, State.lastTop, State.withArbiter, State.withChannel, Vector.getElem_set_ne, hne]
      · simp [State.reportTop, State.withArbiter, State.withChannel, State.channel, Vector.getElem_set_ne, hne]

@[simp] theorem State.setList_slot (s : State) (c : Chan) (l : List Claim) (i : SlotNo) : (s.setList c l).slot i = s.slot i := by
  rw [State.setList_kept]; rfl

@[simp] theorem State.setList_attention (s : State) (c : Chan) (l : List Claim) :
    (s.setList c l).attention = s.attention := by
  rw [State.setList_kept]

@[simp] theorem State.setList_engine (s : State) (c : Chan) (l : List Claim) : (s.setList c l).engine = s.engine := by
  rw [State.setList_kept]

/-! ### Raising an entry's cause -/

/-- Raising a cause for an entry: it joins the slot's notices if the entry's notify names it (R165, R166). -/
theorem State.raiseEntry_eq {s : State} {i : SlotNo} {e : Entry} (h : (s.slot i).entry = some e) (cause : EntryCause) :
    ∃ pulse, s.raiseEntry i cause =
      { s with
        attention :=
          { s.attention with
            entryNotices :=
              s.attention.entryNotices.set i (s.attention.entryNotices[i] ||| (e.defn.notify &&& cause.bit))
            pulse := pulse } } := by
  have hb : e.defn.notify &&& cause.bit = 0 ∨ e.defn.notify &&& cause.bit = cause.bit := by
    generalize e.defn.notify = n
    revert n
    cases cause <;> decide
  unfold State.raiseEntry
  rw [h]
  dsimp only
  rcases hb with hb | hb
  · refine ⟨s.attention.pulse, ?_⟩
    rw [if_pos hb, hb]
    have hv : s.attention.entryNotices.set i (s.attention.entryNotices[i] ||| 0) = s.attention.entryNotices := by
      ext j hj : 1
      by_cases hij : i.val = j
      · subst hij; simp
      · simp
    rw [hv]
  · by_cases hz : e.defn.notify &&& cause.bit = 0
    · exfalso
      rw [hb] at hz
      revert hz
      cases cause <;> decide
    · rw [if_neg hz, hb]
      exact ⟨_, rfl⟩

/-! ### Placement where the list has room -/

theorem length_insertNewest_le (l : List Claim) (c : Claim) : (insertNewest l c).length ≤ l.length + 1 := by
  unfold insertNewest
  rw [length_insertClaim]
  exact Nat.succ_le_succ (clearedFor_sublist l c.source).length_le

theorem placeInList_room {l : List Claim} (h : l.length < Config.claimCapacity) (c : Claim) :
    placeInList l c = { list := insertNewest l c, kept := true, displaced := none } := by
  unfold placeInList
  rw [if_pos (Nat.le_trans (length_insertNewest_le l c) h)]

theorem State.keeps_room {s : State} {c : Chan} (h : (s.list c).length < Config.claimCapacity) (k : Claim) :
    s.keeps c k = true := by
  simp [State.keeps, placeInList_room h]

theorem State.place_room {s : State} {c : Chan} (h : (s.list c).length < Config.claimCapacity) (k : Claim) :
    s.place c k = s.setList c (insertNewest (s.list c) k) := by
  simp [State.place, placeInList_room h]

/-! ### Placement with its displacement -/

theorem mem_insertNewest_iff {l : List Claim} {c d : Claim} :
    d ∈ insertNewest l c ↔ d = c.newest l ∨ d ∈ clearedFor l c.source := by
  unfold insertNewest
  rw [mem_insertClaim]

/-- A claim that is kept stands in the list, and it alone of its source (R95, R97). -/
theorem placeInList_kept {l : List Claim} {c : Claim} (h : (placeInList l c).kept = true) :
    c.newest l ∈ (placeInList l c).list ∧ ∀ d ∈ (placeInList l c).list, d.source = c.source → d = c.newest l := by
  have hu : ∀ d ∈ insertNewest l c, d.source = c.source → d = c.newest l := by
    intro d hd hs
    rcases mem_insertNewest_iff.1 hd with h | h
    · exact h
    · unfold clearedFor at h
      exact absurd hs (mem_dropSource.1 h).2
  have hm : c.newest l ∈ insertNewest l c := mem_insertNewest_iff.2 (.inl rfl)
  unfold placeInList at h ⊢
  split at h
  · next hh =>
    rw [if_pos hh]
    exact ⟨hm, hu⟩
  · next hh =>
    rw [if_neg hh]
    unfold overflowList at h ⊢
    cases hl : (insertNewest l c).getLast? with
    | none => exact ⟨hm, hu⟩
    | some last =>
      simp only [hl] at h ⊢
      split at h
      · cases h
      · next hne =>
        rw [if_neg hne]
        have hsub : ∀ d ∈ (insertNewest l c).dropLast, d ∈ insertNewest l c := fun d hd => (List.dropLast_sublist _).mem hd
        have hmem : c.newest l ∈ (insertNewest l c).dropLast := by
          rw [← List.dropLast_append_getLast? last hl] at hm
          rcases List.mem_append.1 hm with h | h
          · exact h
          · exact absurd (by rw [← List.mem_singleton.1 h]; rfl) hne
        split
        · exact ⟨List.mem_filter.2 ⟨hmem, by simp [Claim.newest]⟩, fun d hd => hu d (hsub d (List.mem_filter.1 hd).1)⟩
        · exact ⟨hmem, fun d hd => hu d (hsub d hd)⟩

/-- An entry that is pushed out loses held and raises DISPLACED for its slot (R97, R101). -/
theorem State.displaceEntry_eq (s : State) (i : SlotNo) :
    let t := (s.setHeld i false).raiseEntry i .displaced
    s.entryDisplaced t i ∧ s.onlySlot t i ∧ t.attention.channelNotices = s.attention.channelNotices ∧
      ∃ T N P, t = { s with table := T, attention := { s.attention with entryNotices := N, pulse := P } } := by
  intro t
  cases h : (s.slot i).entry with
  | none =>
    have ht : t = s := by simp [t, State.setHeld, State.raiseEntry, h]
    rw [ht]
    exact ⟨⟨fun _ => ⟨rfl, rfl⟩, fun e he => absurd he (by simp [h])⟩, fun j _ => ⟨rfl, rfl⟩, rfl, _, _, _, rfl⟩
  | some e =>
    have h1 : s.setHeld i false = s.withSlot i { gen := (s.slot i).gen, entry := some { e with held := false } } := by
      simp [State.setHeld, h]
    obtain ⟨p, hp⟩ := State.raiseEntry_eq
      (s := s.withSlot i { gen := (s.slot i).gen, entry := some { e with held := false } }) (i := i)
      (e := { e with held := false }) (by simp) .displaced
    have ht : t = State.raiseEntry _ i .displaced := congrArg (fun u => State.raiseEntry u i .displaced) h1
    rw [ht, hp]
    refine ⟨⟨fun hn => absurd hn (by simp [h]), fun e' he' => ?_⟩, fun j hj => ?_, rfl, _, _, _, rfl⟩
    · rw [h] at he'
      cases he'
      exact ⟨State.slot_withSlot_self _ _ _, by simp⟩
    · have hne : i.val ≠ j.val := Fin.val_ne_of_ne hj.symm
      exact ⟨State.slot_withSlot_ne _ _ hj, by simp [Vector.getElem_set_ne, hne]⟩

/-- A placement with its displacement and its report (R96, R97). -/
theorem State.place_placesClaim (s : State) (c : Chan) (claim : Claim) : s.placesClaim (s.place c claim) c claim := by
  have k1 := State.setList_list_self s c (placeInList (s.list c) claim).list
  have k2 := State.setList_follows s c (placeInList (s.list c) claim).list
  have k3 := State.setList_onlyChannel s c (placeInList (s.list c) claim).list
  have k4 := State.setList_kept s c (placeInList (s.list c) claim).list
  have hslot : ∀ j, (s.setList c (placeInList (s.list c) claim).list).slot j = s.slot j := fun j => State.setList_slot ..
  have hatt := State.setList_attention s c (placeInList (s.list c) claim).list
  unfold State.place
  dsimp only
  generalize s.setList c (placeInList (s.list c) claim).list = u at *
  cases hd : (placeInList (s.list c) claim).displaced with
  | none =>
    have hno : ∀ src, ¬s.pushesOut c claim src := fun src ⟨d, h, _⟩ => by simp [hd] at h
    refine ⟨k1, k2, k3, fun _ => by rw [k4]; exact ⟨rfl, rfl⟩, fun i h => absurd h (hno _), fun i _ h => absurd h (hno _), ?_⟩
    dsimp only
    rw [k4]
  | some d =>
    dsimp only
    have hsrc : ∀ src, s.pushesOut c claim src → d.source = src := fun src ⟨e, h, hs⟩ => by
      rw [hd] at h
      cases h
      exact hs
    have hother : isEntrySource d.source = false → s.placesClaim (u.raiseChannel c .displaced) c claim := by
      intro hx
      refine ⟨k1, k2, k3, fun h => absurd h (by simp [hd]), fun i h => ?_, fun src _ _ => ?_, ?_⟩
      · rw [hsrc _ h] at hx
        cases hx
      · rw [← hatt]
        exact ⟨by rw [k4]; rfl, rfl, rfl⟩
      · rw [k4]
        rfl
    cases hx : d.source with
    | input k => simpa [State.displace, hx] using hother (by rw [hx]; rfl)
    | port k => simpa [State.displace, hx] using hother (by rw [hx]; rfl)
    | entry i =>
      obtain ⟨d1, d2, d3, T, N, P, d4⟩ := State.displaceEntry_eq u i
      have hdis : u.displace c d = (u.setHeld i false).raiseEntry i .displaced := by simp [State.displace, hx]
      rw [hdis]
      refine ⟨?_, ?_, ?_, fun h => absurd h (by simp [hd]), fun j hj => ?_, fun src hs h => ?_, ?_⟩
      · rw [d4]
        exact k1
      · rw [d4]
        exact k2
      · rw [d4]
        exact k3
      · have hji := hsrc _ hj
        rw [hx] at hji
        cases hji
        refine ⟨?_, fun j hj => ?_, by rw [d3, hatt]⟩
        · unfold State.entryDisplaced at *
          rw [hslot, hatt] at d1
          exact d1
        · rw [← hslot, ← hatt]
          exact d2 j hj
      · rw [← hsrc _ h, hx] at hs
        cases hs
      · rw [d4, k4]

/-! ### The claim of an entry -/

theorem placeInList_displaced {l : List Claim} {c d : Claim} (h : (placeInList l c).displaced = some d) :
    (placeInList l c).kept = true ∧ d.source ≠ c.source := by
  unfold placeInList at h ⊢
  split at h
  · cases h
  · next hh =>
    rw [if_neg hh]
    unfold overflowList at h ⊢
    cases hl : (insertNewest l c).getLast? with
    | none => simp [hl] at h
    | some last =>
      simp only [hl] at h ⊢
      split at h
      · cases h
      · next hne =>
        rw [if_neg hne]
        split at h <;> (cases h; split <;> exact ⟨rfl, hne⟩)

/-- A list that does not keep the newcomer pushes nothing out. -/
theorem State.not_pushesOut {s : State} {c : Chan} {claim : Claim} (h : (placeInList (s.list c) claim).kept = false)
    (src : Source) : ¬s.pushesOut c claim src := by
  rintro ⟨d, hd, -⟩
  rw [(placeInList_displaced hd).1] at h
  cases h

theorem State.pushesOut_unique {s : State} {c : Chan} {claim : Claim} {a b : Source} (ha : s.pushesOut c claim a)
    (hb : s.pushesOut c claim b) : a = b := by
  obtain ⟨d, hd, rfl⟩ := ha
  obtain ⟨d', hd', rfl⟩ := hb
  rw [hd] at hd'
  cases hd'
  rfl

/-- A placement leaves alone every slot whose claim it does not push out. -/
theorem State.placesClaim_others {s t : State} {c : Chan} {claim : Claim} (h : s.placesClaim t c claim) {j : SlotNo}
    (hj : ¬s.pushesOut c claim (.entry j)) :
    t.slot j = s.slot j ∧ t.attention.entryNotices[j] = s.attention.entryNotices[j] := by
  obtain ⟨-, -, -, h4, h5, h6, -⟩ := h
  cases hd : (placeInList (s.list c) claim).displaced with
  | none => rw [State.slot, (h4 hd).1, (h4 hd).2]; exact ⟨rfl, rfl⟩
  | some d =>
    cases hx : d.source with
    | entry i =>
      have hp : s.pushesOut c claim (.entry i) := ⟨d, hd, hx⟩
      exact (h5 i hp).2.1 j (fun e => hj (e ▸ hp))
    | input k =>
      obtain ⟨a, b, -⟩ := h6 (.input k) rfl ⟨d, hd, hx⟩
      rw [State.slot, a, b]
      exact ⟨rfl, rfl⟩
    | port p =>
      obtain ⟨a, b, -⟩ := h6 (.port p) rfl ⟨d, hd, hx⟩
      rw [State.slot, a, b]
      exact ⟨rfl, rfl⟩

/-- A placement that pushes out no claim of an input or a port raises nothing for the channel. -/
theorem State.placesClaim_channelNotices {s t : State} {c : Chan} {claim : Claim} (h : s.placesClaim t c claim)
    (hn : ∀ src, isEntrySource src = false → ¬s.pushesOut c claim src) :
    t.attention.channelNotices = s.attention.channelNotices := by
  obtain ⟨-, -, -, h4, h5, -, -⟩ := h
  cases hd : (placeInList (s.list c) claim).displaced with
  | none => rw [(h4 hd).2]
  | some d =>
    cases hx : d.source with
    | entry i => exact (h5 i ⟨d, hd, hx⟩).2.2
    | input k => exact absurd ⟨d, hd, hx⟩ (hn (.input k) rfl)
    | port p => exact absurd ⟨d, hd, hx⟩ (hn (.port p) rfl)

/-- The claim of an entry is handed to the arbiter, and held follows its answer (R44, R56, R97). -/
theorem State.placeEntryClaim_places {s : State} {i : SlotNo} {e : Entry} (h : (s.slot i).entry = some e) :
    s.placesEntry (s.placeEntryClaim i) i (s.slot i).gen e 0 ∧ (s.placeEntryClaim i).engine = s.engine := by
  have hplace := State.place_placesClaim s e.defn.channel (entryClaim i e.defn)
  cases hk : (placeInList (s.list e.defn.channel) (entryClaim i e.defn)).kept with
  | false =>
    have ht : s.placeEntryClaim i = (s.setHeld i false).raiseEntry i .displaced := by
      simp [State.placeEntryClaim, h, State.keeps, hk]
    obtain ⟨⟨-, d1⟩, d2, d3, T, N, P, d4⟩ := State.displaceEntry_eq s i
    rw [ht]
    obtain ⟨d5, d6⟩ := d1 e h
    refine ⟨⟨by rw [hk]; exact d5, by rw [hk, d6]; simp, fun hc => absurd (hk.symm.trans hc) (by simp), fun _ => ?_,
      fun j hj => ⟨fun hp => absurd hp (State.not_pushesOut hk _), fun _ => d2 j hj⟩,
      fun ⟨src, _, hp⟩ => absurd hp (State.not_pushesOut hk _), fun _ => d3, ?_, ?_⟩, by rw [d4]⟩
    · rw [d4]; exact ⟨rfl, rfl, rfl, rfl⟩
    · rw [d4]; exact ⟨rfl, fun _ _ => ⟨rfl, rfl, rfl, rfl⟩⟩
    · rw [d4]; rfl
  | true =>
    have hown : ¬s.pushesOut e.defn.channel (entryClaim i e.defn) (.entry i) := fun ⟨d, hd, hs⟩ =>
      (placeInList_displaced hd).2 hs
    obtain ⟨o1, o2⟩ := State.placesClaim_others hplace hown
    have ht : s.placeEntryClaim i =
        (s.place e.defn.channel (entryClaim i e.defn)).withSlot i
          { gen := (s.slot i).gen, entry := some { e with held := true } } := by
      simp [State.placeEntryClaim, h, State.keeps, hk, State.setHeld, o1]
    have hothers := fun j => State.placesClaim_others (j := j) hplace
    have hnotices := State.placesClaim_channelNotices hplace
    obtain ⟨p1, p2, p3, p4, p5, p6, p7⟩ := hplace
    rw [ht]
    generalize s.place e.defn.channel (entryClaim i e.defn) = u at *
    refine ⟨⟨by rw [hk]; exact State.slot_withSlot_self _ _ _, by rw [hk]; simpa using o2, fun _ => ⟨p1, p2⟩,
      fun hc => absurd (hk.symm.trans hc) (by simp), fun j hj => ⟨fun hp => ?_, fun hp => ?_⟩, fun ⟨src, hs, hp⟩ => ?_,
      hnotices, p3, ?_⟩, by rw [p7]; rfl⟩
    · obtain ⟨q1, q2⟩ := (p5 j hp).1
      refine ⟨fun hn => ?_, fun e' he' => ?_⟩
      · rw [State.slot_withSlot_ne _ _ hj]
        exact q1 hn
      · rw [State.slot_withSlot_ne _ _ hj]
        exact q2 e' he'
    · rw [State.slot_withSlot_ne _ _ hj]
      exact hothers j hp
    · exact (p6 src hs hp).2.2
    · have he : u.engine = s.engine := by rw [p7]
      unfold State.placementOnly
      conv_lhs => rw [p7]
      dsimp only [State.withSlot]
      rw [he]

/-- A step that has set slot `i` and its notices, followed by the placement of its claim. -/
theorem State.placesEntry_after {s m t : State} {i : SlotNo} {gen : Byte} {e : Entry} {raised : BitVec 5}
    (hs : ∀ j, j ≠ i → m.slot j = s.slot j ∧ m.attention.entryNotices[j] = s.attention.entryNotices[j])
    (hn : m.attention.entryNotices[i] = s.attention.entryNotices[i] ||| raised)
    (hm : ∃ T N P, m = { s with table := T, attention := { s.attention with entryNotices := N, pulse := P } })
    (h : m.placesEntry t i gen e 0) : s.placesEntry t i gen e raised := by
  obtain ⟨T, N, P, rfl⟩ := hm
  obtain ⟨h1, h2, h3, h4, h5, h6, h7, h8, h9⟩ := h
  refine ⟨h1, ?_, h3, h4, fun j hj => ⟨fun hp => ?_, fun hp => ?_⟩, h6, h7, h8, h9⟩
  · rw [h2, hn]
    simp
    rfl
  · have h := (h5 j hj).1 hp
    unfold State.entryDisplaced at h ⊢
    rw [(hs j hj).1, (hs j hj).2] at h
    exact h
  · obtain ⟨a, b⟩ := (h5 j hj).2 hp
    exact ⟨a.trans (hs j hj).1, b.trans (hs j hj).2⟩

/-! ### Activation and the end of an occurrence -/

/-- An activation (R44). -/
theorem State.activate_activates {s : State} {i : SlotNo} {e : Entry} (h : (s.slot i).entry = some e) (d : Date) :
    s.activates (s.activate i d) i e d ∧ (s.activate i d).engine = s.engine := by
  have h1 : ((s.stepEntry i (e.activated d)).slot i).entry = some (e.activated d) := by simp [State.stepEntry]
  obtain ⟨pulse, hp⟩ := State.raiseEntry_eq h1 .started
  have h2 : (((s.stepEntry i (e.activated d)).raiseEntry i .started).slot i).entry = some (e.activated d) := by
    rw [hp]; exact h1
  have hg : (((s.stepEntry i (e.activated d)).raiseEntry i .started).slot i).gen = (s.slot i).gen + 1 := by
    rw [hp]
    show ((s.stepEntry i (e.activated d)).slot i).gen = _
    simp [State.stepEntry]
  obtain ⟨k1, k2⟩ := State.placeEntryClaim_places h2
  have ht : s.activate i d = ((s.stepEntry i (e.activated d)).raiseEntry i .started).placeEntryClaim i := by
    unfold State.activate
    rw [h]
  have hs : ∀ b, ({ e.activated d with held := b } : Entry) = { e.started d with held := b } := by
    intro b
    cases hk : e.defn.kind <;> simp [Entry.activated, Entry.started, hk, windowClose, crossesMidnight]
    split <;> rfl
  rw [hg] at k1
  rw [ht]
  refine ⟨?_, k2.trans (by rw [hp]; rfl)⟩
  refine State.placesEntry_after (m := (s.stepEntry i (e.activated d)).raiseEntry i .started) (fun j hj => ?_) ?_ ?_ ?_
  · have hne : i.val ≠ j.val := Fin.val_ne_of_ne hj.symm
    rw [hp]
    exact ⟨State.slot_withSlot_ne _ _ hj, by simp [State.stepEntry, Vector.getElem_set_ne, hne]⟩
  · rw [hp]
    simp [State.stepEntry, Entry.activated]
  · rw [hp]
    exact ⟨_, _, _, rfl⟩
  · obtain ⟨q1, q⟩ := k1
    exact ⟨q1.trans (by rw [hs]; rfl), q⟩

/-- A withdrawal of an entry's claim touches its list alone (R45). -/
theorem State.withdrawEntryClaim_withdraws {s : State} {i : SlotNo} {e : Entry} (h : (s.slot i).entry = some e) :
    s.withdraws (s.withdrawEntryClaim i) i e ∧ s.onlyChannel (s.withdrawEntryClaim i) e.defn.channel ∧
      s.withdrawEntryClaim i =
        { s with arbiter := (s.withdrawEntryClaim i).arbiter, channels := (s.withdrawEntryClaim i).channels } := by
  unfold State.withdrawEntryClaim
  rw [h]
  dsimp only
  unfold State.withdraws
  split
  · exact ⟨⟨State.setList_list_self _ _ _, State.setList_follows _ _ _⟩, State.setList_onlyChannel _ _ _,
      State.setList_kept _ _ _⟩
  · exact ⟨⟨rfl, rfl, rfl, rfl⟩, ⟨rfl, fun _ _ => ⟨rfl, rfl, rfl, rfl⟩⟩, rfl⟩

/-- An entry's claim is withdrawn, its notices become `v` and its slot `x`: what the claims say of it. -/
theorem State.withdrawn_slot_notice {s : State} {i : SlotNo} {e : Entry} (h : (s.slot i).entry = some e) (x : Slot)
    (v : BitVec 5) (pulse : Bool) :
    let w := s.withdrawEntryClaim i
    let t : State := { (w.withSlot i x) with
      attention := { s.attention with entryNotices := s.attention.entryNotices.set i v, pulse := pulse } }
    t.slot i = x ∧ t.attention.entryNotices[i] = v ∧ s.withdraws t i e ∧ s.onlySlot t i ∧
      s.onlyChannel t e.defn.channel ∧ s.evaluationOnly t ∧ t.engine = s.engine := by
  intro w t
  obtain ⟨hw, ho, hk⟩ := State.withdrawEntryClaim_withdraws h
  have hslot : ∀ j, w.slot j = s.slot j := by
    intro j
    show (s.withdrawEntryClaim i).slot j = _
    rw [hk]
    rfl
  refine ⟨State.slot_withSlot_self _ _ _, by simp [t], hw, ?_, ho, ?_, ?_⟩
  · intro j hj
    have hne : i.val ≠ j.val := Fin.val_ne_of_ne hj.symm
    refine ⟨?_, by simp [t, Vector.getElem_set_ne, hne]⟩
    show (w.withSlot i x).slot j = _
    rw [State.slot_withSlot_ne _ _ hj, hslot j]
  · show s.evaluationOnly { ((s.withdrawEntryClaim i).withSlot i x) with
      attention := { s.attention with entryNotices := s.attention.entryNotices.set i v, pulse := pulse } }
    generalize s.withdrawEntryClaim i = u at hk ⊢
    rw [hk]
    rfl
  · show (s.withdrawEntryClaim i).engine = _
    rw [hk]

/-- The notices and the slot of an entry that has entered SPENT: SPENT is raised if notify names it, and a slot that autofree frees
at once is EMPTY in a second step, without notices (R46). -/
theorem State.enteredSpent_eq {s : State} {i : SlotNo} {e : Entry} (h : (s.slot i).entry = some e) :
    ∃ pulse,
      (e.defn.freedWhenSpent →
        s.enteredSpent i =
          { (s.withSlot i { gen := (s.slot i).gen + 1, entry := none }) with
            attention := { s.attention with entryNotices := s.attention.entryNotices.set i 0, pulse := pulse } }) ∧
      (¬e.defn.freedWhenSpent →
        s.enteredSpent i =
          { s with
            attention :=
              { s.attention with
                entryNotices :=
                  s.attention.entryNotices.set i
                    (s.attention.entryNotices[i] ||| (e.defn.notify &&& EntryCause.spent.bit))
                pulse := pulse } }) := by
  by_cases hf : e.defn.freedWhenSpent
  · have h1 : s.raiseEntry i .spent = s := by
      unfold State.raiseEntry
      rw [h]
      dsimp only
      rw [if_pos hf.2]
    have h2 : s.enteredSpent i = s.freeSlot i := by
      unfold State.enteredSpent State.autofreeSpent
      rw [h1, h]
      exact if_pos hf
    exact ⟨_, fun _ => h2, fun hn => absurd hf hn⟩
  · obtain ⟨pulse, hp⟩ := State.raiseEntry_eq h .spent
    have h2 : s.enteredSpent i = s.raiseEntry i .spent := by
      unfold State.enteredSpent State.autofreeSpent
      rw [hp]
      show (match (s.slot i).entry with
        | none => _
        | some e => _) = _
      rw [h]
      exact if_neg hf
    exact ⟨pulse, fun ht => absurd ht hf, fun _ => h2.trans hp⟩

/-- An ARMED entry becomes SPENT (R46). -/
theorem State.spendArmed_spends {s : State} {i : SlotNo} {e : Entry} (h : (s.slot i).entry = some e) :
    s.spends (s.spendArmed i) i e ∧ (s.spendArmed i).engine = s.engine := by
  have h1 : ((s.stepEntry i { e with state := .spent }).slot i).entry = some { e with state := .spent } := by
    simp [State.stepEntry]
  obtain ⟨pulse, hf, hn⟩ := State.enteredSpent_eq h1
  unfold State.spendArmed
  rw [h]
  dsimp only
  by_cases hfr : e.defn.freedWhenSpent
  · rw [hf hfr]
    refine ⟨⟨fun _ => ⟨?_, ?_⟩, fun hc => absurd hfr hc, fun j hj => ?_, rfl, rfl, rfl⟩, rfl⟩
    · show State.slot (State.withSlot _ i _) i = _
      rw [State.slot_withSlot_self]
      simp [State.stepEntry, BitVec.add_assoc]
    · simp
    · have hne : i.val ≠ j.val := Fin.val_ne_of_ne hj.symm
      refine ⟨?_, ?_⟩
      · show State.slot (State.withSlot _ i _) j = _
        rw [State.slot_withSlot_ne _ _ hj]
        exact State.slot_withSlot_ne _ _ hj
      · simp [State.stepEntry, Vector.getElem_set_ne, hne]
  · rw [hn hfr]
    refine ⟨⟨fun hc => absurd hc hfr, fun _ => ⟨?_, ?_⟩, fun j hj => ?_, rfl, rfl, rfl⟩, rfl⟩
    · exact State.slot_withSlot_self _ _ _
    · simp [State.stepEntry]
    · have hne : i.val ≠ j.val := Fin.val_ne_of_ne hj.symm
      refine ⟨State.slot_withSlot_ne _ _ hj, ?_⟩
      simp [State.stepEntry, Vector.getElem_set_ne, hne]

/-- What the end of an occurrence makes of the slot and its notices, beside the withdrawal of the claim (R45, R46). -/
theorem State.endOccurrence_eq {s : State} {i : SlotNo} {e : Entry} (h : (s.slot i).entry = some e) :
    ∃ (x : Slot) (v : BitVec 5) (pulse : Bool),
      s.endOccurrence i =
        { ((s.withdrawEntryClaim i).withSlot i x) with
          attention := { s.attention with entryNotices := s.attention.entryNotices.set i v, pulse := pulse } } ∧
      if e.remBudget = some 0 ∨ e.final then
        (e.defn.freedWhenSpent → x = { gen := (s.slot i).gen + 2, entry := none } ∧ v = 0) ∧
          (¬e.defn.freedWhenSpent →
            x = { gen := (s.slot i).gen + 1, entry := some (e.ended .spent) } ∧
              v = s.attention.entryNotices[i] ||| (e.defn.notify &&& EntryCause.ended.bit) |||
                (e.defn.notify &&& EntryCause.spent.bit))
      else
        x = { gen := (s.slot i).gen + 1, entry := some (e.ended .armed) } ∧
          v = s.attention.entryNotices[i] ||| (e.defn.notify &&& EntryCause.ended.bit) := by
  obtain ⟨-, -, hk⟩ := State.withdrawEntryClaim_withdraws h
  have h1 : ((s.withdrawEntryClaim i).slot i).entry = some e := by rw [hk]; exact h
  have hg : ((s.withdrawEntryClaim i).slot i).gen = (s.slot i).gen := by rw [hk]; rfl
  have ha : (s.withdrawEntryClaim i).attention = s.attention := by rw [hk]
  obtain ⟨p1, hp1⟩ := State.raiseEntry_eq h1 .ended
  unfold State.endOccurrence
  rw [h]
  dsimp only
  rw [hp1, ha]
  generalize s.withdrawEntryClaim i = w at hg
  have hg' : ∀ a : Attention, (State.slot { w with attention := a } i).gen = (s.slot i).gen := fun _ => hg
  by_cases hs : e.remBudget = some 0 ∨ e.final
  · simp only [if_pos hs]
    generalize hm : (State.stepEntry _ i (e.leaveActive .spent)) = m
    have h2 : (m.slot i).entry = some (e.leaveActive .spent) := by rw [← hm]; simp [State.stepEntry]
    have hmg : (m.slot i).gen = (s.slot i).gen + 1 := by rw [← hm]; simp [State.stepEntry, hg']
    obtain ⟨p2, hf, hn⟩ := State.enteredSpent_eq h2
    by_cases hfr : e.defn.freedWhenSpent
    · refine ⟨{ gen := (s.slot i).gen + 2, entry := none }, 0, p2, ?_, fun _ => ⟨rfl, rfl⟩, fun hc => absurd hfr hc⟩
      rw [hf hfr, hmg, ← hm]
      simp [State.stepEntry, State.withSlot, BitVec.add_assoc]
    · refine ⟨{ gen := (s.slot i).gen + 1, entry := some (e.ended .spent) }, _, p2, ?_, fun hc => absurd hc hfr,
        fun _ => ⟨rfl, rfl⟩⟩
      rw [hn hfr, ← hm]
      simp [State.stepEntry, State.withSlot, Entry.leaveActive, Entry.ended, hg']
  · simp only [if_neg hs]
    refine ⟨_, _, p1, ?_, rfl, rfl⟩
    simp [State.stepEntry, State.withSlot, Entry.leaveActive, Entry.ended, hg']

/-- The end of an occurrence (R45, R46). -/
theorem State.endOccurrence_ends {s : State} {i : SlotNo} {e : Entry} (h : (s.slot i).entry = some e) :
    s.endsOccurrence (s.endOccurrence i) i e ∧ (s.endOccurrence i).engine = s.engine := by
  obtain ⟨x, v, pulse, heq, hx⟩ := State.endOccurrence_eq h
  obtain ⟨a1, a2, a3, a4, a5, a6, a7⟩ := State.withdrawn_slot_notice h x v pulse
  rw [heq]
  refine ⟨⟨?_, a3, a4, a5, a6⟩, a7⟩
  split at hx
  · next hs =>
    rw [if_pos hs]
    exact ⟨fun hf => ⟨a1.trans (hx.1 hf).1, a2.trans (hx.1 hf).2⟩, fun hf => ⟨a1.trans (hx.2 hf).1, a2.trans (hx.2 hf).2⟩⟩
  · next hs =>
    rw [if_neg hs]
    exact ⟨a1.trans hx.1, a2.trans hx.2⟩

/-! ### Rejoin and admission -/

/-- The close of an admission changes the table alone, and there the one slot (R50). -/
theorem State.closeAdmission_kept (s : State) (i : SlotNo) :
    ∃ x : Slot, s.closeAdmission i = s.withSlot i x ∧ x.gen = (s.slot i).gen ∧
      x.entry = (s.slot i).entry.map Entry.visited := by
  unfold State.closeAdmission
  split
  · next h =>
    refine ⟨s.slot i, ?_, rfl, by rw [h]; rfl⟩
    simp [State.withSlot, State.slot]
  · next e h => exact ⟨_, rfl, rfl, by rw [h]; rfl⟩

/-- Whatever the claims say of a step, its admission's close adds to the one slot alone. -/
theorem State.closeAdmission_claims {s t : State} {i : SlotNo} {c : Chan} :
    (s.onlySlot t i → s.onlySlot (t.closeAdmission i) i) ∧
      (s.followsList t c → s.followsList (t.closeAdmission i) c) ∧
      (s.onlyChannel t c → s.onlyChannel (t.closeAdmission i) c) ∧
      (s.evaluationOnly t → s.evaluationOnly (t.closeAdmission i)) ∧
      (t.closeAdmission i).attention = t.attention ∧ (t.closeAdmission i).arbiter = t.arbiter ∧
      (t.closeAdmission i).channels = t.channels ∧ (t.closeAdmission i).engine = t.engine := by
  obtain ⟨x, hx, -, -⟩ := t.closeAdmission_kept i
  rw [hx]
  refine ⟨fun h j hj => ?_, fun h => h, fun h => h, fun h => ?_, rfl, rfl, rfl, rfl⟩
  · rw [State.slot_withSlot_ne _ _ hj]
    exact h j hj
  · unfold State.evaluationOnly at *
    conv_lhs => rw [h]
    rfl

/-- The close of an admission after the placement of the entry's claim (R50, R52). -/
theorem State.placesEntry_close {s t : State} {i : SlotNo} {gen : Byte} {e : Entry} {raised : BitVec 5}
    (h : s.placesEntry t i gen e raised) : s.placesEntry (t.closeAdmission i) i gen e.visited raised := by
  obtain ⟨h1, h2, h3, h4, h5, h6, h7, h8, h9⟩ := h
  obtain ⟨x, hx, hg, he⟩ := t.closeAdmission_kept i
  rw [h1] at hg he
  rw [hx]
  refine ⟨?_, h2, h3, h4, fun j hj => ⟨fun hp => ?_, fun hp => ?_⟩, h6, h7, h8, ?_⟩
  · rw [State.slot_withSlot_self]
    cases x
    simp only at hg he
    subst hg he
    rfl
  · obtain ⟨q1, q2⟩ := (h5 j hj).1 hp
    exact ⟨fun hn => by rw [State.slot_withSlot_ne _ _ hj]; exact q1 hn,
      fun e' he' => by rw [State.slot_withSlot_ne _ _ hj]; exact q2 e' he'⟩
  · rw [State.slot_withSlot_ne _ _ hj]
    exact (h5 j hj).2 hp
  · unfold State.placementOnly at *
    conv_lhs => rw [h9]
    rfl

/-- A rejoin (R52, R58). -/
theorem State.rejoinEntry_rejoins {s : State} {i : SlotNo} {e : Entry} (h : (s.slot i).entry = some e) (close : Minute) :
    s.rejoins ((s.rejoinEntry i close).closeAdmission i) i e close ∧
      ((s.rejoinEntry i close).closeAdmission i).engine = s.engine := by
  have h1 : ((s.stepEntry i { e with state := .active, endDue := some close }).slot i).entry =
      some { e with state := .active, endDue := some close } := by simp [State.stepEntry]
  have hg : ((s.stepEntry i { e with state := .active, endDue := some close }).slot i).gen = (s.slot i).gen + 1 := by
    simp [State.stepEntry]
  obtain ⟨k1, k2⟩ := State.placeEntryClaim_places h1
  rw [hg] at k1
  have ht : s.rejoinEntry i close =
      (s.stepEntry i { e with state := .active, endDue := some close }).placeEntryClaim i := by
    unfold State.rejoinEntry
    rw [h]
  obtain ⟨x, hx, -, -⟩ := (s.rejoinEntry i close).closeAdmission_kept i
  refine ⟨State.placesEntry_close (e := { e with state := .active, endDue := some close }) ?_, ?_⟩
  · rw [ht]
    exact State.placesEntry_after (m := s.stepEntry i { e with state := .active, endDue := some close })
      (fun j hj => ⟨State.slot_withSlot_ne _ _ hj, rfl⟩) (by simp [State.stepEntry])
      ⟨_, s.attention.entryNotices, s.attention.pulse, rfl⟩ k1
  · rw [hx]
    exact (congrArg State.engine ht).trans k2

/-- The close of an admission after the entry has become SPENT (R50). -/
theorem State.spends_close {s t : State} {i : SlotNo} {e : Entry} (h : s.spends t i e) :
    s.spends (t.closeAdmission i) i e.visited := by
  obtain ⟨b1, b2, b3, b4, b5, b6⟩ := h
  obtain ⟨c1, c2, c3, c4, c5, c6, c7, c8⟩ := State.closeAdmission_claims (s := s) (t := t) (i := i) (c := e.defn.channel)
  obtain ⟨x, hx, hg, he⟩ := t.closeAdmission_kept i
  refine ⟨fun hf => ?_, fun hf => ?_, c1 b3, c6.trans b4, c7.trans b5, c4 b6⟩
  · obtain ⟨d1, d2⟩ := b1 hf
    rw [c5]
    refine ⟨?_, d2⟩
    rw [hx, State.slot_withSlot_self]
    rw [d1] at hg he
    cases x
    simp only at hg he
    subst hg he
    rfl
  · obtain ⟨d1, d2⟩ := b2 hf
    rw [c5]
    refine ⟨?_, d2⟩
    rw [hx, State.slot_withSlot_self]
    rw [d1] at hg he
    cases x
    simp only at hg he
    subst hg he
    rfl

/-- An admission (R50). -/
theorem State.admitOne_admits {s : State} {i : SlotNo} {e : Entry} (h : (s.slot i).entry = some e) (m : Minute) :
    s.admits (s.admitOne i m) i e m ∧ (s.admitOne i m).engine = s.engine := by
  refine ⟨?_, (admit_eval s i m).engine⟩
  unfold State.admits State.admitOne State.admitSteps
  rw [h]
  dsimp only
  cases hw : e.rejoinWindow m with
  | some close => exact (State.rejoinEntry_rejoins h close).1
  | none =>
    dsimp only
    by_cases hb : e.remBudget = some 0
    · rw [if_pos hb, if_pos hb]
      exact State.spends_close (State.spendArmed_spends h).1
    · rw [if_neg hb, if_neg hb]
      cases ha : e.admissible s.dates s.clock.date m with
      | some d => exact State.placesEntry_close (State.activate_activates h d).1
      | none =>
        show s.closeAdmission i = _
        unfold State.closeAdmission
        rw [h]
        rfl

end Sys2Proof.Machine
end

