-- ==== Sys2Proof/Laws/Service.lean ====
section
/-! SUPPORT. What taking a request does: nothing where it is not due, and otherwise the body's effect with the response in the
slot (R191, R198). -/

namespace Sys2Proof.Machine

theorem State.request_eq_some {s : State} {p : Port} {r : Request} (h : s.request p = some r) :
    (s.port p).slot = .pending r := by
  unfold State.request at h
  split at h
  · next x hx => rw [hx]; exact congrArg _ (Option.some.inj h)
  all_goals cases h

theorem State.request_of_port {s t : State} {p : Port} (h : t.port p = s.port p) : t.request p = s.request p := by
  unfold State.request
  rw [h]

/-- Changing a slot changes that port's slot and, through the PORT group, the pulse alone. -/
theorem State.setPortSlot_port_self (s : State) (p : Port) (x : PortSlot) :
    (s.setPortSlot p x).port p = { s.port p with slot := x } := by
  simp [State.setPortSlot]

theorem State.setPortSlot_port_ne (s : State) {p q : Port} (x : PortSlot) (h : q ≠ p) :
    (s.setPortSlot p x).port q = s.port q := by
  simp [State.setPortSlot, State.withPort_port_ne s _ h]

theorem State.setPortSlot_pending (s : State) (p : Port) (x : PortSlot) : (s.setPortSlot p x).pending = s.pending := by
  simp [State.setPortSlot]

/-- An owner's answer where the request still stands. -/
theorem State.respond_eq {s : State} {p : Port} {r : Request} (h : s.request p = some r) (reply : Reply) :
    s.respond p reply = s.setPortSlot p (.ready (responseFrame r.tag reply)) := by
  unfold State.respond
  rw [h]

/-- A request of another command, or none, is not taken. -/
theorem State.serve_idle {s : State} {c : Command} {p : Port} {body : Body}
    (h : s.running = false ∨ ∀ r, s.request p = some r → r.code ≠ c.code) : s.serve c p body = s := by
  unfold State.serve
  split
  · next hr =>
    split
    · rfl
    · next r hq =>
      rcases h with h | h
      · rw [h] at hr; cases hr
      · rw [if_neg (h r hq)]
  · rfl

/-- A request that is taken: the body's effect, and the answer with the request's tag, when the body leaves the port alone. -/
theorem State.serve_eq {s : State} {c : Command} {p : Port} {body : Body} {r : Request} (hr : s.running = true)
    (hq : s.request p = some r) (hc : r.code = c.code) (hp : (body r.payload s).1.port p = s.port p) :
    s.serve c p body =
      (body r.payload s).1.setPortSlot p (.ready (responseFrame r.tag (body r.payload s).2)) := by
  unfold State.serve
  rw [if_pos hr, hq]
  dsimp only
  rw [if_pos hc, State.respond_eq ((State.request_of_port hp).trans hq)]

/-- A table command is not taken while a resync or a wipe is in flight (R71). -/
theorem State.serveTable_waits {s : State} {c : Command} {p : Port} {body : Body} (h : s.tableFree = false) :
    s.serveTable c p body = s := by
  unfold State.serveTable
  rw [if_neg (by rw [h]; exact Bool.false_ne_true)]

theorem State.serveTable_free {s : State} {c : Command} {p : Port} {body : Body} (h : s.tableFree = true) :
    s.serveTable c p body = s.serve c p body := by
  unfold State.serveTable
  rw [if_pos h]

end Sys2Proof.Machine
end

