-- ==== Sys2Proof/Tests/Slice0.lean ====
section
/-! SUPPORT. The model's own tests: the smoke test of WellFormed, a few steps with the values the manual gives for them, and for
every statement with hypotheses one named witness: a concrete state and operands that meet them together, clause by clause. -/

open Sys2Proof Sys2Proof.Machine

namespace Sys2Proof.Tests

set_option Elab.async false

/-! ### The states of the tests -/

/-- Monday, 2026-03-02. -/
def monday : Date := { year := 26, month := 3, day := 2 }

/-- The part with its timebase RUNNING, its clock VALID at 08:30:15 on that Monday, and both ports listening. -/
def live : State :=
  { State.reset with
    timebase := { Timebase.cold with state := .running }
    clock := { date := monday, hour := 8, minute := 30, second := 15, valid := true }
    dates := { records := [], today := .weekday 0 }
    mainPort := { PortState.reset with listening := true }
    panelPort := { PortState.reset with listening := true } }

/-- The same with the clock INVALID. -/
def clockless : State := live.withClock { live.clock with valid := false }

/-- The same with the divider's second complete. -/
def secondOver (s : State) : State := s.withTimebase { s.timebase with subSecond := 100 }

/-- The part on backup, and in COLD. -/
def onBackup : State := { State.reset with supply := .backup, timebase := live.timebase, clock := live.clock }
def inCold : State := { State.reset with supply := .cold }

def timeIs (s : State) (hour minute second : Nat) : State :=
  s.withClock { s.clock with hour := hour, minute := minute, second := second }

/-- The slot of port `p` holds PENDING a request of command `c` with tag 1. -/
def asking (s : State) (p : Port) (c : Command) (payload : List Byte) : State :=
  s.withPort p { s.port p with slot := .pending { tag := 1, code := c.code, payload := payload } }

theorem asking_asks (s : State) (p : Port) (c : Command) (payload : List Byte) (h : s.running = true) :
    (asking s p c payload).asks p c 1 payload := by
  cases p <;> exact ⟨h, rfl⟩

def slotIs (s : State) (p : Port) (slot : PortSlot) : State := s.withPort p { s.port p with slot := slot }

/-- Slot `i` holds `e` at generation 7. -/
def holding (s : State) (i : SlotNo) (e : Entry) : State := s.withSlot i { gen := 7, entry := some e }

def working (s : State) (w : Work) : State := s.withEngine { s.engine with work := w }

def wiping (s : State) (cursor : Nat) : State :=
  s.withEngine { s.engine with wipe := some { port := .main, cursor := cursor } }

def listIs (s : State) (c : Chan) (l : List Claim) : State :=
  s.withArbiter { s.arbiter with lists := s.arbiter.lists.set c l, lastTop := s.arbiter.lastTop.set c (topOf l) }

/-- Channel 0 from 08:00 to 17:00 on every day. -/
def span : Definition :=
  { kind := .span { hour := 17, minute := 0 }, channel := 0, priority := 5, daySet := 0x3FF,
    start := { hour := 8, minute := 0 }, action := .on, fromDate := none, untilDate := none, budget := none,
    catchUp := false, notify := 0x1F, autofree := false, guarded := false, label := [] }

/-- The longest EVENT there is, at 08:30, with the longest label. -/
def event : Definition :=
  { span with
      kind := .event 3600, start := { hour := 8, minute := 30 }, priority := 7, budget := some 255,
      action := .pulse { onWidth := 255, offWidth := 1, burst := 0 }, catchUp := true,
      fromDate := some { year := 0, month := 2, day := 29 }, untilDate := some { year := 99, month := 12, day := 31 },
      label := List.replicate 12 0x41 }

def armed (d : Definition) : Entry := { newEntry d .main with admissionDue := false }

/-- The span in its window of that Monday, its claim standing. -/
def running : Entry :=
  { armed span with
      state := .active, held := true, stamp := some { date := monday, time := span.start },
      endDue := some { date := monday, time := { hour := 17, minute := 0 } } }

def counting (seconds : Nat) : Entry :=
  { armed event with state := .active, stamp := some { date := monday, time := event.start }, remSeconds := seconds }

def suspended : Entry :=
  { running with state := .suspended, held := false, interrupted := true, endDue := none }

def claimThree : Claim := { entryClaim 3 span with order := 1 }

/-- Slot 3 ACTIVE with its claim in the list of channel 0, which the output stage has not in service. -/
def busy : State := listIs (holding live 3 running) 0 [claimThree]

def forced (k : Lifetime) : Claim := { source := .port .panel, priority := 9, action := .on, lifetime := k, order := 1 }

/-- A full list: an entry's claim of priority 5 from each of slots 0 to 7, slot 0's placed last. -/
def fullList : List Claim :=
  (List.finRange 8).map fun n =>
    { source := .entry ⟨n.val, by omega⟩, priority := 5, action := .on, lifetime := .entry, order := 8 - n.val }

/-- The same with a claim of the panel port in its last place. -/
def fullPortList : List Claim :=
  fullList.dropLast ++ [{ source := .port .panel, priority := 5, action := .on, lifetime := .latch, order := 1 }]

def enabledChannel : ChannelConfig :=
  { ChannelConfig.cold with enabled := true, guardTime := 2, proofEnable := true }

def inService (s : State) (c : Chan) (run : ChannelRun) : State :=
  (s.withConfig c enabledChannel).withChannel c run

/-- Channel 0 GUARDING on ON with `left` ticks to go. -/
def guarding (pending : Option Action) (left : Nat) : State :=
  inService live 0 { ChannelRun.fresh enabledChannel pending .on with guard := left }

/-- Channel 0 on a pulse, in the phase given with `left` ticks to go. -/
def pulsing (wave : Wave) (shape : Shape) (left : Nat) : State :=
  inService live 0 { ChannelRun.fresh enabledChannel none (.pulse shape) with wave := wave, phaseTicks := left }

/-- Channel 0 proved and commanded ON, its sense pin low, with `left` ticks of the proof timer to go. -/
def judging (proof : Proof) (left : Nat) : State :=
  inService live 0 { ChannelRun.fresh enabledChannel none .on with proof := proof, proofTicks := left }

/-! ### WellFormed refuses each kind of ill-formed term -/

theorem test_wellFormed_frame : Instr.wellFormed (.requestFrame .main []) = false := by decide
theorem test_wellFormed_kind : Instr.wellFormed (.badKind .panel 0xA2 0) = false := by decide
theorem test_wellFormed_wipeTakes : Instr.wellFormed (.wipeComplete [.main, .main]) = false := by decide
theorem test_wellFormed_resyncTakes : Instr.wellFormed (.resyncComplete [.panel, .main, .panel]) = false := by decide
theorem test_wellFormed_timed : Instr.wellFormed (.timedExpiry 0 (.entry 3)) = false := by decide
theorem test_wellFormed_accepts :
    Instr.wellFormed (.requestFrame .main [5]) = true ∧ Instr.wellFormed (.badKind .panel 0xA0 0) = true ∧
      Instr.wellFormed (.wipeComplete [.main, .panel]) = true ∧
      Instr.wellFormed (.timedExpiry 0 (.input 3)) = true := by decide

/-! ### Values the manual gives -/

/-- The three kind bytes of section 11.3. -/
theorem test_kinds :
    transactionOf .main 0xA1 9 = .submit .main ∧ transactionOf .main 0xA2 9 = .fetch .main 9 ∧
      transactionOf .panel 0xA3 9 = .poll .panel 9 ∧ transactionOf .panel 0xA4 9 = .badKind .panel 0xA4 9 := by decide

/-- The frame and the CRC steps of R204: READ_CLOCK with tag 5. -/
theorem test_crc_of_readClock :
    crcByte 0 0x05 = 0x1B ∧ crcByte (crcByte 0 0x05) 0x10 = 0x31 ∧
      requestFrame { tag := 0x05, code := 0x10, payload := [] } = [0x05, 0x10, 0x00, 0x97] := by decide +kernel

/-- R151: the weekday of 2025-12-24, a Wednesday (13.2), and of 2025-01-14, a Tuesday (13.5). -/
theorem test_weekdays :
    Date.weekday { year := 25, month := 12, day := 24 } = 2 ∧ Date.weekday { year := 25, month := 1, day := 14 } = 1 := by
  decide +kernel

/-- Table 13.5, slot 2: an EVENT of 05:30 with catch_up and budget 5 is activated late by a resync at 06:12:40 whose skipped
interval is 00:00 to 06:12; gen 10, remaining budget 4, stamp 05:30 of the 15th. -/
def lateEvent : Definition :=
  { event with
      kind := .event 1200, channel := 1, start := { hour := 5, minute := 30 }, budget := some 5, fromDate := none,
      untilDate := none }

def outage : State :=
  working
    { (live.withSlot 2 { gen := 9, entry := some (armed lateEvent) }) with
      clock := { date := { year := 25, month := 1, day := 15 }, hour := 6, minute := 12, second := 40, valid := true }
      dates := { records := [], today := .weekday 2 } }
    (.resync
      { date := { year := 25, month := 1, day := 15 }, time := { hour := 6, minute := 12 }, second := 40 }
      { first := 0, last := 372 } 2)

theorem test_resync_runs_late_event :
    (outage.resyncStep.slot 2).gen = 10 ∧
      (outage.resyncStep.slot 2).entry.map (fun e => (e.state, e.remBudget, e.remSeconds)) =
        some (.active, some 4, 1200) := by decide +kernel

theorem test_skipped_interval :
    skippedInterval (some { date := { year := 25, month := 1, day := 14 }, time := { hour := 23, minute := 40 } })
        { date := { year := 25, month := 1, day := 15 }, time := { hour := 6, minute := 12 }, second := 40 } =
      { first := 0, last := 372 } := by decide

/-- Table 13.3 at 20:30: a claim of priority 0 is the last of nine and is not kept; at 20:42 INPUT 5 of priority 1 pushes out
ENTRY 65 of priority 1. -/
def signage : List Claim :=
  [{ source := .port .main, priority := 6, action := .on, lifetime := .latch, order := 8 },
    { source := .entry 60, priority := 4, action := .on, lifetime := .entry, order := 7 },
    { source := .entry 61, priority := 4, action := .on, lifetime := .entry, order := 6 },
    { source := .entry 62, priority := 3, action := .on, lifetime := .entry, order := 5 },
    { source := .entry 63, priority := 3, action := .on, lifetime := .entry, order := 4 },
    { source := .entry 64, priority := 2, action := .on, lifetime := .entry, order := 3 },
    { source := .input 3, priority := 2, action := .off, lifetime := .latch, order := 2 },
    { source := .entry 65, priority := 1, action := .on, lifetime := .entry, order := 1 }]

theorem test_overflow_of_13_3 :
    (placeInList signage (entryClaim 66 { span with priority := 0 })).kept = false ∧
      (placeInList signage
          { source := .input 5, priority := 1, action := .off, lifetime := .momentary, order := 0 }).displaced.map
        Claim.source = some (.entry 65) := by decide +kernel

/-- Section 13.4: after a SUSPEND_ENTRY of the ACTIVE entry, the other request for the old generation is STALE. -/
theorem test_race_of_13_4 :
    (((asking busy .main .suspendEntry [3, 7]).serveTable .suspendEntry .main (suspendEntryBody .main)).slot 3).gen = 8 ∧
      ((suspendEntryBody .panel [3, 7]
        (((asking busy .main .suspendEntry [3, 7]).serveTable .suspendEntry .main
          (suspendEntryBody .main)).withPolicy 2)).2).status = .stale := by decide +kernel

/-! ### Witnesses: the machine and the encodings -/

theorem test_witness_IdleStepCountsTicks :
    (live.pending = [] ∧ live.running = true ∧ live.dueRows = []) ∧
      (guarding none 0).pending = [] ∧ (guarding none 0).running = true ∧
        (guarding none 0).dueRows = [.guardExpiry 0] ∧
      ((secondOver onBackup).running = false ∧ (secondOver onBackup).dueRows = [.secondBoundary]) ∧
      (secondOver (guarding none 0)).dueRows = [.guardExpiry 0, .secondBoundary] ∧
      (onBackup.pending = [] ∧ onBackup.running = false ∧ onBackup.supply ≠ .cold ∧ onBackup.dueRows = []) ∧
      inCold.pending = [] ∧ inCold.running = false ∧ inCold.supply = .cold ∧ inCold.dueRows = [] := by decide +kernel

theorem test_witness_FirstPowerUpIsReset :
    inCold.supply = .cold ∧ inCold.pins = Pins.powerUp ∧ inCold.pending = [] := by decide +kernel

theorem test_witness_FrameLayout :
    (Reply.ok (List.replicate 60 0xFF)).payload.length ≤ Config.maxPayload ∧
      ({ tag := 1, code := 0x20, payload := List.replicate 60 0 } : Request).payload.length ≤ Config.maxPayload := by decide

theorem test_witness_DescriptorRoundTrip : span.sound ∧ event.sound := by
  refine ⟨⟨by decide, by decide, by decide, ⟨by decide, by decide⟩, trivial, ?_, ?_, by decide, by decide, by decide, by decide⟩,
    ⟨by decide, by decide, by decide, ⟨by decide, by decide⟩, ⟨by decide, by decide⟩, ?_, ?_, by decide, by decide, by decide, by decide⟩⟩ <;>
  · intro d h
    cases h
    try decide

theorem test_witness_SubmittedRequestIsPending :
    live.answers .panel = true ∧ (live.port .panel).slot = .idle ∧ commandOf 0x10 ≠ none ∧
      (List.replicate 60 (0 : Byte)).length ≤ Config.maxPayload := by decide +kernel

theorem test_witness_DamagedOrUnknownFrame :
    (slotIs live .panel (.receiving [])).answers .panel = true ∧
      ((slotIs live .panel (.receiving [])).port .panel).slot = .receiving [] ∧ Config.maxPayload < (61 : Byte).toNat ∧
      (List.replicate 60 (0 : Byte)).length ≤ Config.maxPayload ∧ ([] : List Byte).length ≤ Config.maxPayload ∧
      (0x96 : Byte) ≠ crc ([0x05, 0x10, byteOf 0] ++ []) ∧ commandOf 0xFF = none := by decide +kernel

theorem test_witness_NextDateIsNextDay :
    Date.possible { year := 0, month := 2, day := 29 } = true ∧
      Date.possible { year := 99, month := 12, day := 30 } = true ∧
      (({ year := 99, month := 12, day := 30 } : Date) ≠ { year := 99, month := 12, day := 31 }) := by decide

/-! ### Witnesses: the ports -/

theorem test_witness_BusySubmitIsRefused :
    (slotIs live .main (.ready [1])).answers .main = true ∧ (slotIs live .main (.ready [1])).mainPort.slot ≠ .idle ∧
      (slotIs live .panel (.ready [1])).answers .panel = true ∧
      (slotIs live .panel (.ready [1])).panelPort.slot ≠ .idle := by decide +kernel

theorem test_witness_FrameCutShort :
    ((slotIs live .main (.receiving [5])).answers .main = true ∧
      (slotIs live .main (.receiving [5])).mainPort.slot = .receiving [5]) ∧
    ((slotIs live .panel (.receiving [])).answers .panel = true ∧
      (slotIs live .panel (.receiving [])).panelPort.slot = .receiving []) ∧
    live.running = true ∧ (∀ bytes, live.mainPort.slot ≠ .receiving bytes) ∧
      ∀ bytes, live.panelPort.slot ≠ .receiving bytes :=
  ⟨⟨rfl, rfl⟩, ⟨rfl, rfl⟩, rfl, fun _ h => (nomatch h), fun _ h => (nomatch h)⟩

theorem test_witness_DeafUntilFooting :
    (State.reset.answers .main = false ∧ transactionOn .main (.submit .main) = true ∧
      State.reset.answers .panel = false ∧ transactionOn .panel (.panelRead 3) = true ∧ onBackup.running = false) ∧
    State.reset.running = true ∧ (∀ bytes, State.reset.mainPort.slot ≠ .receiving bytes) ∧
      ∀ bytes, State.reset.panelPort.slot ≠ .receiving bytes :=
  ⟨by decide, rfl, fun _ h => (nomatch h), fun _ h => (nomatch h)⟩

theorem test_witness_MainFetch :
    ((slotIs live .main (.ready [1, 2])).answers .main = true ∧
      (slotIs live .main (.ready [1, 2])).mainPort.slot = .ready [1, 2] ∧ 1 < [1, 2].length ∧ [1, 2].length ≤ 2) ∧
    (live.answers .main = true ∧ live.mainPort.slot = .idle) ∧
    (asking live .main .readClock []).mainPort.slot = .pending { tag := 1, code := 0x10, payload := [] } := by decide +kernel

theorem test_witness_MainPoll :
    live.answers .main = true ∧ ∀ bytes, live.mainPort.slot ≠ .receiving bytes :=
  ⟨rfl, fun _ h => (nomatch h)⟩

def selecting (x : Option Selection) : State := live.withPanelBus { live.panelBus with selection := x }

theorem test_witness_PanelReads :
    ((selecting (some .fetch)).answers .panel = true ∧
      ∀ bytes, (selecting (some .fetch)).panelPort.slot ≠ .receiving bytes) ∧
    ((slotIs (selecting (some .fetch)) .panel (.ready [1])).answers .panel = true ∧
      (slotIs (selecting (some .fetch)) .panel (.ready [1])).panelBus.selection = some .fetch ∧
      (slotIs (selecting (some .fetch)) .panel (.ready [1])).panelPort.slot = .ready [1]) ∧
    ((selecting (some .fetch)).panelBus.selection = some .fetch ∧ (selecting (some .fetch)).panelPort.slot = .idle) ∧
    (selecting (some .poll)).panelBus.selection = some .poll ∧ (selecting none).panelBus.selection = none :=
  ⟨⟨rfl, fun _ h => (nomatch h)⟩, ⟨rfl, rfl, rfl⟩, ⟨rfl, rfl⟩, rfl, rfl⟩

/-- R196: the bytes after a FETCH kind in the same panel write are not acknowledged. -/
theorem test_fetch_write_nacks : (live.fetchOn .panel 2).panelBus.acks = [true, true, false, false] := by decide +kernel

theorem test_witness_BadKindIsFlagged :
    (0xA0 : Byte) ≠ 0xA1 ∧ (0xA0 : Byte) ≠ 0xA2 ∧ (0xA0 : Byte) ≠ 0xA3 ∧
      (live.answers .main = true ∧ ∀ bytes, live.mainPort.slot ≠ .receiving bytes) ∧
      live.answers .panel = true ∧ ∀ bytes, live.panelPort.slot ≠ .receiving bytes :=
  ⟨by decide, by decide, by decide, ⟨rfl, fun _ h => (nomatch h)⟩, rfl, fun _ h => (nomatch h)⟩

/-! ### Witnesses: every host command -/

def resyncing (cursor : Nat) : Work :=
  .resync { date := monday, time := { hour := 8, minute := 30 }, second := 15 } { first := 0, last := 510 } cursor

/-- READ_ENTRY of an EMPTY slot is answered NOTFOUND. -/
theorem test_witness_RefusedOrWaitingChangesNothing :
    ((asking live .main .readEntry [3]).asks .main .readEntry 1 [3] ∧
      exec (Command.readEntry.row .main) (asking live .main .readEntry [3]) =
        .next ((asking live .main .readEntry [3]).answered .main 1 (Reply.refusal .notFound)) ∧
      (((asking live .main .readEntry [3]).answered .main 1 (Reply.refusal .notFound)).port .main).slot =
        .ready (responseFrame 1 (Reply.refusal .notFound)) ∧
      (Reply.refusal .notFound).status ≠ .ok) ∧
    Command.readEntry.isTable = true ∧ (working live (resyncing 0)).tableFree = false :=
  ⟨⟨asking_asks live .main .readEntry [3] rfl, rfl, rfl, by decide⟩, rfl, rfl⟩

/-- Slot 255 holds a guarded entry of the panel. -/
def guardedPanel : State := holding live 255 (newEntry { span with guarded := true } .panel)

theorem test_witness_PanelNeedsPermission :
    (Command.setClock.permission = some .calendar ∧ Command.setClock.isTable = false ∧
      (asking (working live (resyncing 0)) .panel .setClock []).policy.getLsbD Permission.calendar.bit = false ∧
      (asking (working live (resyncing 0)) .panel .setClock []).asks .panel .setClock 1 []) ∧
    (Command.wipeTable.permission = some .others ∧ (asking live .panel .wipeTable []).tableFree = true ∧
      (asking live .panel .wipeTable []).asks .panel .wipeTable 1 []) ∧
    (((asking busy .panel .deleteEntry [byteOf 3, 7]).slot 3).entry = some running ∧ running.owner = .main ∧
      (asking busy .panel .deleteEntry [byteOf 3, 7]).policy.getLsbD Permission.others.bit = false ∧
      (asking busy .panel .deleteEntry [byteOf 3, 7]).asks .panel .deleteEntry 1 [byteOf 3, 7] ∧
      (asking busy .panel .deleteEntry [byteOf 3, 7]).tableFree = true) ∧
    (((asking guardedPanel .main .suspendEntry [byteOf 255, 7]).slot 255).entry =
        some (newEntry { span with guarded := true } .panel) ∧
      (newEntry { span with guarded := true } .panel).owner = .panel ∧
      (asking guardedPanel .main .suspendEntry [byteOf 255, 7]).asks .main .suspendEntry 1 [byteOf 255, 7] ∧
      exec (.suspendEntry .main) (asking guardedPanel .main .suspendEntry [byteOf 255, 7]) =
        .next ((asking guardedPanel .main .suspendEntry [byteOf 255, 7]).answered .main 1 (Reply.refusal .denied))) := by
  refine ⟨⟨rfl, rfl, by decide, asking_asks _ _ _ _ rfl⟩, ⟨rfl, rfl, asking_asks _ _ _ _ rfl⟩,
    ⟨by decide +kernel, rfl, by decide, asking_asks _ _ _ _ rfl, rfl⟩, by decide +kernel, rfl, asking_asks _ _ _ _ rfl, rfl⟩

/-- The main port is denied nothing but a handle on an entry that it may not change. -/
theorem not_deniedTo_main {s : State} {c : Command} {payload : List Byte}
    (hm : c.takesHandle = true → s.mayChange .main (slotAt payload) = true) : ¬s.deniedTo .main c payload := by
  rintro (⟨perm, _, h⟩ | ⟨_, h⟩ | ⟨hc, _, h⟩)
  · cases h
  · cases h
  · rw [hm hc] at h
    cases h

/-- Each refusing status has its case: SET_PANEL_POLICY from the panel, a payload too long, SNAP_MINUTE with the clock INVALID,
READ_ENTRY of an EMPTY slot, a handle of the generation before, SUSPEND_ENTRY of a SUSPENDED entry, and a claim of priority 4 on a
full list. -/
theorem test_witness_PanelNeedsPermission_statuses :
    live.refusedWith .panel .setPanelPolicy [] .denied ∧ live.refusedWith .main .readClock [0] .badArg ∧
      clockless.refusedWith .main .snapMinute [] .noClock ∧ live.refusedWith .main .readEntry [3] .notFound ∧
      busy.refusedWith .main .suspendEntry [3, 6] .stale ∧
      (holding live 3 suspended).refusedWith .main .suspendEntry [3, 7] .wrongState ∧
      (listIs live 0 fullList).refusedWith .main .forceChannel [0, 1, 0, 0, 0, 4, 4, 0, 0] .full := by
  refine ⟨.inr (.inl ⟨rfl, rfl⟩), ⟨not_deniedTo_main nofun, nofun⟩,
    ⟨not_deniedTo_main nofun, rfl, .inr ⟨.inl rfl, rfl⟩⟩,
    ⟨not_deniedTo_main nofun, rfl, ?_, .inr (.inl ⟨.inr rfl, by decide +kernel⟩)⟩,
    ⟨not_deniedTo_main fun _ => by decide +kernel, rfl, ?_, ?_, rfl, by decide +kernel⟩,
    ⟨not_deniedTo_main fun _ => by decide +kernel, rfl, ?_, ?_, ?_, .inl ⟨suspended, by decide +kernel, .inl ⟨rfl, .inl rfl⟩⟩⟩,
    not_deniedTo_main nofun, (by decide +kernel : (readForce _).isSome = true), ?_, ?_, ?_, ?_,
    .inr (.inr ⟨rfl, { channel := 0, action := .on, priority := 4, lifetime := .latch }, by decide +kernel,
      by decide +kernel⟩)⟩
  all_goals
    simp [State.lacksClock, State.lacksObject, State.isStale, State.inWrongState, Command.takesHandle]
  · decide +kernel
  · decide +kernel
  · decide +kernel
  · rfl

/-- READ_CLOCK and WIPE_TABLE with empty payloads are refused with no status. -/
theorem test_witness_PanelNeedsPermission_accepted :
    (∀ status : Status, ¬live.refusedWith .main .readClock [] status) ∧
      ∀ status : Status, ¬live.refusedWith .main .wipeTable [] status := by
  constructor <;> intro status h <;> cases status <;>
    simp [State.refusedWith, State.argsGood, State.deniedTo, State.lacksClock, State.lacksObject, State.isStale,
      State.inWrongState, State.hasNoRoom, Command.takesHandle, Command.permission, State.allows] at h

theorem test_witness_ReadersReport :
    (asking live .main .readClock []).asks .main .readClock 1 [] ∧
    ((asking busy .panel .readEntry [byteOf 3]).asks .panel .readEntry 1 [byteOf 3] ∧
      (asking busy .panel .readEntry [byteOf 3]).tableFree = true ∧
      ((asking busy .panel .readEntry [byteOf 3]).slot 3).entry = some running) ∧
    (8 ≤ 8 ∧ (asking busy .main .readChannel [byteOf 23, byteOf 8]).asks .main .readChannel 1 [byteOf 23, byteOf 8]) ∧
    (asking live .main .readInput [byteOf 7]).asks .main .readInput 1 [byteOf 7] :=
  ⟨asking_asks _ _ _ _ rfl, ⟨asking_asks _ _ _ _ rfl, rfl, by decide +kernel⟩, ⟨by decide, asking_asks _ _ _ _ rfl⟩,
    asking_asks _ _ _ _ rfl⟩

theorem test_witness_PagesReport :
    (31 ≤ 31 ∧ (asking live .main .listDates [byteOf 31]).asks .main .listDates 1 [byteOf 31]) ∧
    (asking busy .main .findEntries [4, 1, 0, 0, 0, 3]).asks .main .findEntries 1 [4, 1, 0, 0, 0, 3] ∧
      (asking busy .main .findEntries [4, 1, 0, 0, 0, 3]).tableFree = true ∧
      readFilter [4, 1, 0, 0, 0, 3] = some { states := 4, channel := some 0, owner := none, cursor := 3 } :=
  ⟨⟨by decide, asking_asks _ _ _ _ rfl⟩, asking_asks _ _ _ _ rfl, rfl, by decide +kernel⟩

/-! ### Witnesses: clock and dates -/

theorem test_witness_SetClockTakesTheTime :
    (clockless.allows .main .calendar = true ∧ Date.possible { year := 99, month := 12, day := 31 } = true ∧
      DayMinute.possible { hour := 23, minute := 59 } = true ∧ 59 ≤ 59 ∧ clockless.timebase.state = .running) ∧
    (asking clockless .main .setClock
        (Date.bytes { year := 99, month := 12, day := 31 } ++ DayMinute.bytes { hour := 23, minute := 59 } ++
          [byteOf 59])).asks .main .setClock 1
      (Date.bytes { year := 99, month := 12, day := 31 } ++ DayMinute.bytes { hour := 23, minute := 59 } ++ [byteOf 59]) :=
  ⟨by decide, asking_asks _ _ _ _ rfl⟩

theorem test_witness_SnapMinuteRounds :
    ((asking (timeIs live 23 59 29) .main .snapMinute []).allows .main .calendar = true ∧
      (asking (timeIs live 23 59 29) .main .snapMinute []).clock.valid = true ∧
      (asking (timeIs live 23 59 29) .main .snapMinute []).asks .main .snapMinute 1 [] ∧
      (asking (timeIs live 23 59 29) .main .snapMinute []).clock.second < 30) ∧
    (asking (timeIs live 23 59 30) .main .snapMinute []).asks .main .snapMinute 1 [] ∧
      30 ≤ (asking (timeIs live 23 59 30) .main .snapMinute []).clock.second :=
  ⟨⟨rfl, rfl, asking_asks _ _ _ _ rfl, by decide⟩, asking_asks _ _ _ _ rfl, by decide⟩

/-- The Monday itself is a holiday. -/
def holidays : State := live.withDates { records := [{ date := monday, dayType := .holiday }], today := .special .holiday }

theorem test_witness_DateCommandsKeepTheSet :
    ((asking live .main .addDate (monday.bytes ++ [DayType.specialA.code])).allows .main .calendar = true ∧
      monday.possible = true ∧ live.DatesSound ∧ (live.clock.valid = true → monday.before live.clock.date = false) ∧ live.dates.records.length < 32 ∧
      (asking live .main .addDate (monday.bytes ++ [DayType.specialA.code])).asks .main .addDate 1
        (monday.bytes ++ [DayType.specialA.code])) ∧
    ((∃ r ∈ holidays.dates.records, r.date = monday) ∧
      (asking holidays .main .removeDate monday.bytes).asks .main .removeDate 1 monday.bytes) ∧
    (asking (wiping live 3) .main .addDate (monday.bytes ++ [DayType.specialA.code])).asks .main .addDate 1
        (monday.bytes ++ [DayType.specialA.code]) ∧
      (wiping live 3).clock.valid = true ∧ DayClass.special .specialA ≠ live.dates.today :=
  ⟨⟨rfl, by decide, by unfold State.DatesSound; decide, by decide, by decide, asking_asks _ _ _ _ rfl⟩, ⟨by decide, asking_asks _ _ _ _ rfl⟩,
    asking_asks _ _ _ _ rfl, rfl, by decide⟩

/-! ### Witnesses: the table -/

/-- Slot 0 taken, so that slot 1 is the lowest EMPTY one. -/
def oneTaken (s : State) : State := holding s 0 (armed span)

/-- Channel 0 from 09:00: not open at 08:30. -/
def later : Definition := { span with start := { hour := 9, minute := 0 } }

/-- Channel 0 from 22:00 to 09:00: open at 08:30 since the day before. -/
def overnight : Definition := { span with start := { hour := 22, minute := 0 }, kind := .span { hour := 9, minute := 0 } }

theorem test_witness_AddEntryTakesLowestSlot :
    ((asking (oneTaken clockless) .panel .addEntry span.bytes).asks .panel .addEntry 1 span.bytes ∧
      (oneTaken clockless).tableFree = true ∧ readDescriptor span.bytes = some span ∧
      ((oneTaken clockless).slot 1).entry = none ∧
      (∀ j : SlotNo, j.val < (1 : SlotNo).val → ((oneTaken clockless).slot j).entry ≠ none) ∧
      (oneTaken clockless).clock.valid = false) ∧
    (∃ m cursor, (working (oneTaken live) (.sweep { date := monday, time := { hour := 8, minute := 30 } } 1)).engine.work =
      .sweep m cursor ∧ cursor ≤ (1 : SlotNo).val) ∧
    (∃ m cursor, (working (oneTaken live) (.sweep { date := monday, time := { hour := 8, minute := 30 } } 2)).engine.work =
      .sweep m cursor ∧ (1 : SlotNo).val < cursor) ∧
    ((asking (oneTaken live) .main .addEntry later.bytes).asks .main .addEntry 1 later.bytes ∧
      readDescriptor later.bytes = some later ∧ (oneTaken live).clock.valid = true ∧
      (oneTaken live).engine.work = .idle ∧
      (newEntry later .main).admissible (oneTaken live).dates monday (oneTaken live).clock.now = none ∧
      later.budget ≠ some 0) := by
  refine ⟨⟨asking_asks _ _ _ _ rfl, rfl, by decide +kernel, by decide +kernel, by decide +kernel, rfl⟩,
    ⟨_, _, rfl, by decide⟩, ⟨_, _, rfl, by decide⟩, asking_asks _ _ _ _ rfl, by decide +kernel, rfl, rfl, by decide +kernel,
    by decide⟩

theorem test_witness_AddEntryJoinsOpenWindow :
    ((asking (oneTaken live) .main .addEntry span.bytes).asks .main .addEntry 1 span.bytes ∧
      readDescriptor span.bytes = some span ∧ ((oneTaken live).slot 1).entry = none ∧ live.clock.valid = true ∧
      live.engine.work = .idle ∧
      span.startsOn live.dates live.clock.date monday = true ∧
      inWindow monday span.start { hour := 17, minute := 0 } live.clock.now = true) ∧
    (overnight.startsOn live.dates live.clock.date monday.previous = true ∧
      inWindow monday.previous overnight.start { hour := 9, minute := 0 } live.clock.now = true ∧
      ¬(overnight.startsOn live.dates live.clock.date monday = true ∧
        inWindow monday overnight.start { hour := 9, minute := 0 } live.clock.now = true)) ∧
    (event.start = live.clock.now.time ∧ event.startsToday live.dates monday = true) :=
  ⟨⟨asking_asks _ _ _ _ rfl, by decide +kernel, by decide +kernel, rfl, rfl, by decide +kernel, by decide +kernel⟩, by decide +kernel, by decide +kernel⟩

def modifying (s : State) (d : Definition) : State := asking s .main .modifyEntry ([byteOf 3, 7] ++ d.bytes)

/-- The span SPENT, and the same with autofree and priority 6. -/
def spent : Entry := { armed span with state := .spent }
def freeing : Definition := { span with priority := 6, autofree := true }

theorem test_witness_ModifyEntryByDifference :
    ((modifying busy span).asks .main .modifyEntry 1 ([byteOf 3, 7] ++ span.bytes) ∧ busy.tableFree = true ∧
      readModify ([byteOf 3, 7] ++ span.bytes) = some (3, (busy.slot 3).gen, span) ∧
      (busy.slot 3).entry = some running ∧ busy.mayChange .main 3 = true) ∧
    (readModify ([byteOf 3, 7] ++ { span with priority := 6 }.bytes) = some (3, 7, { span with priority := 6 }) ∧
      Definition.sameTiming { span with priority := 6 } span = true ∧ (armed span).held = false ∧
      (armed span).state ≠ .spent) ∧
    (running.state = .active ∧ running.held = true ∧ claimOf (busy.list 0) (.entry 3) = some claimThree) ∧
    (later ≠ span ∧ later.sameTiming span = false ∧ suspended.state ≠ .active ∧ suspended.held = false ∧
      (holding clockless 3 suspended).clock.valid = false) ∧
    ((modifying (holding live 3 spent) freeing).asks .main .modifyEntry 1 ([byteOf 3, 7] ++ freeing.bytes) ∧
      readModify ([byteOf 3, 7] ++ freeing.bytes) = some (3, 7, freeing) ∧ freeing.sameTiming span = true ∧
      freeing.autofree = true ∧ spent.state = .spent ∧ spent.held = false ∧
      (holding live 3 spent).attention.entryNotices[(3 : SlotNo)] &&& EntryCause.spent.bit = 0 ∧
      (EntryCause.spent.bit &&& EntryCause.spent.bit : BitVec 5) ≠ 0) ∧
    ((modifying busy later).asks .main .modifyEntry 1 ([byteOf 3, 7] ++ later.bytes) ∧
      readModify ([byteOf 3, 7] ++ later.bytes) = some (3, 7, later) ∧ running.state ≠ .suspended ∧
      busy.clock.valid = true ∧ busy.engine.work = .idle) :=
  ⟨⟨asking_asks _ _ _ _ rfl, rfl, by decide +kernel, by decide +kernel, by decide +kernel⟩, by decide +kernel,
    by decide +kernel, by decide +kernel, ⟨asking_asks _ _ _ _ rfl, by decide +kernel⟩, asking_asks _ _ _ _ rfl,
    by decide +kernel⟩

theorem test_witness_HandleCommands :
    (busy.tableFree = true ∧ (busy.slot 3).entry = some running ∧ busy.mayChange .main 3 = true ∧
      (asking busy .main .suspendEntry [byteOf 3, 7]).asks .main .suspendEntry 1 [byteOf 3, 7] ∧ running.state = .active) ∧
    (((holding live 3 (armed span)).slot 3).entry = some (armed span) ∧ (armed span).state = .armed) ∧
    ((asking (holding clockless 3 suspended) .main .resumeEntry [byteOf 3, 7, 1]).asks .main .resumeEntry 1
        [byteOf 3, 7, 1] ∧ suspended.state = .suspended ∧ clockless.clock.valid = false) ∧
    ((asking (holding live 3 suspended) .main .resumeEntry [byteOf 3, 7, 0]).asks .main .resumeEntry 1 [byteOf 3, 7, 0] ∧
      live.clock.valid = true ∧ live.engine.work = .idle) ∧
    (asking busy .main .deleteEntry [byteOf 3, 7]).asks .main .deleteEntry 1 [byteOf 3, 7] :=
  ⟨⟨rfl, by decide +kernel, by decide +kernel, asking_asks _ _ _ _ rfl, rfl⟩, by decide +kernel,
    ⟨asking_asks _ _ _ _ rfl, rfl, rfl⟩, ⟨asking_asks _ _ _ _ rfl, rfl, rfl⟩, asking_asks _ _ _ _ rfl⟩

theorem test_witness_ResumeRejoinsOccurrence :
    ((holding live 3 suspended).tableFree = true ∧ ((holding live 3 suspended).slot 3).entry = some suspended ∧
      (holding live 3 suspended).mayChange .main 3 = true ∧ suspended.state = .suspended ∧
      suspended.defn.kind = .span { hour := 17, minute := 0 } ∧
      suspended.stamp = some { date := monday, time := span.start } ∧ suspended.interrupted = true ∧
      live.clock.valid = true ∧ live.engine.work = .idle ∧
      inWindow monday span.start { hour := 17, minute := 0 } live.clock.now = true) ∧
    (asking (holding live 3 suspended) .main .resumeEntry [byteOf 3, 7, 1]).asks .main .resumeEntry 1 [byteOf 3, 7, 1] :=
  ⟨by decide +kernel, asking_asks _ _ _ _ rfl⟩

theorem test_witness_WipeRows :
    ((asking live .main .wipeTable []).asks .main .wipeTable 1 [] ∧ live.allows .main .others = true ∧
      live.tableFree = true) ∧
    ((wiping busy 3).running = true ∧ (wiping busy 3).engine.wipe = some { port := .main, cursor := 3 } ∧
      ((wiping busy 3).slot 3).entry = some running ∧ ((wiping busy 255).slot 255).entry = none) ∧
    ((asking (wiping live 256) .main .wipeTable []).engine.wipe = some { port := .main, cursor := 256 } ∧ 256 ≤ 256 ∧
      ((asking (wiping live 256) .main .wipeTable []).port .main).slot =
        .pending { tag := 1, code := Command.wipeTable.code, payload := [] }) ∧
    Command.readEntry.isTable = true ∧ (asking (wiping live 256) .panel .readEntry [3]).asks .panel .readEntry 1 [3] :=
  ⟨⟨asking_asks _ _ _ _ rfl, rfl, rfl⟩, by decide +kernel, by decide +kernel, rfl, asking_asks _ _ _ _ rfl⟩

/-! ### Witnesses: channels and inputs -/

theorem test_witness_PlacementKeepsOrder :
    (ListSound fullList ∧ fullList.length = Config.claimCapacity ∧ (placeInList fullList claimThree).kept = true ∧
      (placeInList fullList (entryClaim 9 { span with priority := 4 })).kept = false ∧
      (placeInList fullList (entryClaim 9 span)).kept = true ∧
      (placeInList fullList (entryClaim 9 span)).displaced.isSome = true) ∧
    ListSound signage ∧ ListSound [claimThree] ∧ [claimThree].length < Config.claimCapacity := by
  unfold ListSound
  decide +kernel

/-- ON at priority 9 for 1440 minutes on channel 0. -/
def forcePayload : List Byte := [0, 1, 0, 0, 0, 0xFF, 2, 5, 160]

/-- The same at priority 4. -/
def weakPayload : List Byte := [0, 1, 0, 0, 0, 4, 2, 5, 160]

theorem test_witness_ForceChannelPlaces :
    ((asking busy .main .forceChannel forcePayload).asks .main .forceChannel 1 forcePayload ∧
      busy.allows .main .force = true ∧
      readForce forcePayload = some { channel := 0, action := .on, priority := 9, lifetime := .timed 1440 86400 } ∧
      busy.clock.valid = true ∧ (busy.list 0).length < Config.claimCapacity) ∧
    ((asking (listIs live 0 fullList) .main .forceChannel forcePayload).asks .main .forceChannel 1 forcePayload ∧
      (placeInList ((listIs live 0 fullList).list 0)
        (Force.claim { channel := 0, action := .on, priority := 9, lifetime := .timed 1440 86400 } .main)).kept = true) ∧
    (asking (listIs live 0 fullList) .main .forceChannel weakPayload).asks .main .forceChannel 1 weakPayload ∧
      readForce weakPayload = some { channel := 0, action := .on, priority := 4, lifetime := .timed 1440 86400 } ∧
      (placeInList ((listIs live 0 fullList).list 0)
        (Force.claim { channel := 0, action := .on, priority := 4, lifetime := .timed 1440 86400 } .main)).kept = false :=
  ⟨⟨asking_asks _ _ _ _ rfl, rfl, by decide +kernel, rfl, by decide +kernel⟩, ⟨asking_asks _ _ _ _ rfl, by decide +kernel⟩,
    asking_asks _ _ _ _ rfl, by decide +kernel, by decide +kernel⟩

theorem test_witness_ClaimsLeave :
    ((asking (listIs live 0 [{ forced .latch with source := .port .main }]) .main .releaseChannel [byteOf 0]).asks .main
        .releaseChannel 1 [byteOf 0] ∧
      claimOf ((listIs live 0 [{ forced .latch with source := .port .main }]).list 0) (.port .main) =
        some { forced .latch with source := .port .main }) ∧
    ((listIs live 0 [forced (.timed 1 0)]).running = true ∧ Source.mayBeTimed (.port .panel) = true ∧
      claimOf ((listIs live 0 [forced (.timed 1 0)]).list 0) (.port .panel) = some (forced (.timed 1 0)) ∧
      claimOf ((listIs live 0 [forced (.timed 1 1)]).list 0) (.port .panel) = some (forced (.timed 1 1))) :=
  ⟨⟨asking_asks _ _ _ _ rfl, by decide +kernel⟩, by decide +kernel⟩

/-- Channel 23 enabled with guard time 2 and proof, and channel 23 not enabled. -/
def enablePayload : List Byte := [23, 1, 0, 0, 2, 1, 10, 0]
def disablePayload : List Byte := [23, 0, 0, 0, 2, 1, 10, 0]

theorem test_witness_ConfigureChannelByState :
    ((asking live .main .configureChannel enablePayload).asks .main .configureChannel 1 enablePayload ∧
      live.allows .main .config = true ∧ readChannelConfig enablePayload = some (23, enabledChannel) ∧
      (live.channel 23).state = .disabled) ∧
    readChannelConfig disablePayload = some (23, { enabledChannel with enabled := false }) ∧
    ((inService live 23 (ChannelRun.retired enabledChannel .faulted .fault)).channel 23).state = .faulted ∧
    ((inService live 23 (ChannelRun.fresh enabledChannel none .on)).channel 23).state = .guarding :=
  ⟨⟨asking_asks _ _ _ _ rfl, rfl, by decide +kernel, by decide +kernel⟩, by decide +kernel, by decide +kernel,
    by decide +kernel⟩

theorem test_witness_ClearFaultReturnsToService :
    (asking (inService live 0 (ChannelRun.retired enabledChannel .faulted .fault)) .main .clearFault [byteOf 0]).asks .main
        .clearFault 1 [byteOf 0] ∧
      (inService live 0 (ChannelRun.retired enabledChannel .faulted .fault)).allows .main .force = true ∧
      ((inService live 0 (ChannelRun.retired enabledChannel .faulted .fault)).channel 0).state = .faulted :=
  ⟨asking_asks _ _ _ _ rfl, rfl, by decide +kernel⟩

/-- Input 7, MOMENTARY on channels 0 and 23, ON at priority 9. -/
def bindPayload : List Byte := [7, 1, 1, 5, 0, 0x80, 0, 1, 1, 0, 0, 0, 9, 0, 0, 0]
def bound : Binding :=
  { enabled := true, lowActive := true, debounce := 5, mask := 0x800001, action := .on, priority := 9, mode := .momentary }

/-- Input 7 bound in the mode given, its pin low while its stable level is high, `left` ticks of debounce to go. -/
def pressed (mode : Mode) (left : Nat) : State :=
  { (live.withBinding 7 { bound with mode := mode }).withInput 7 { InputRun.atLevel true with debounceLeft := some left } with
    pins := { live.pins with inputs := live.pins.inputs.set 7 false } }

theorem test_witness_BindInputReplaces :
    (asking live .main .bindInput bindPayload).asks .main .bindInput 1 bindPayload ∧ live.allows .main .config = true ∧
      readBindInput bindPayload = some (7, bound) ∧
      ((pressed .toggle 3).input 7).debounceLeft = some 3 ∧ ((pressed .toggle 0).input 7).debounceLeft = some 0 :=
  ⟨asking_asks _ _ _ _ rfl, rfl, by decide +kernel, rfl, rfl⟩

/-! ### Witnesses: attention and the panel policy -/

theorem test_witness_NextCauseSelects : (asking live .panel .nextCause []).asks .panel .nextCause 1 [] :=
  asking_asks _ _ _ _ rfl

/-- Notices of slot 255 and channel 23 alone. -/
def noticed : State :=
  live.withAttention
    { live.attention with
      entryNotices := live.attention.entryNotices.set 255 EntryCause.spent.bit
      channelNotices := live.attention.channelNotices.set 23 ChannelCause.fault.bit }

theorem test_witness_NoticesAreTaken :
    ((asking live .main .nextEntryNotice []).asks .main .nextEntryNotice 1 [] ∧
      ∀ i : SlotNo, live.attention.entryNotices[i] = 0) ∧
    ((asking noticed .main .nextEntryNotice []).asks .main .nextEntryNotice 1 [] ∧
      noticed.attention.entryNotices[(255 : SlotNo)] ≠ 0 ∧
      ∀ j : SlotNo, j.val < (255 : SlotNo).val → noticed.attention.entryNotices[j] = 0) ∧
    ((asking live .main .takeChannelNotice []).asks .main .takeChannelNotice 1 [] ∧
      ∀ c : Chan, live.attention.channelNotices[c] = 0) ∧
    (noticed.attention.channelNotices[(23 : Chan)] ≠ 0 ∧
      ∀ d : Chan, d.val < (23 : Chan).val → noticed.attention.channelNotices[d] = 0) ∧
    (asking live .main .takeInputEvents []).asks .main .takeInputEvents 1 [] ∧
    (asking live .main .ackClock [flagBit true 0 ||| flagBit true 1]).asks .main .ackClock 1
      [flagBit true 0 ||| flagBit true 1] :=
  ⟨⟨asking_asks _ _ _ _ rfl, by decide +kernel⟩, ⟨asking_asks _ _ _ _ rfl, by decide +kernel, by decide +kernel⟩,
    ⟨asking_asks _ _ _ _ rfl, by decide +kernel⟩, by decide +kernel, asking_asks _ _ _ _ rfl, asking_asks _ _ _ _ rfl⟩

/-- CLOCK enabled at level 3 and PORT at level 0, in PULSE and in LEVEL mode, TICK every day. -/
def pulsePayload : List Byte := [0, 0, 0, 0, 0, 0, 1, 3, 1, 0, 1, 4]
def levelPayload : List Byte := [0, 0, 0, 0, 0, 0, 1, 3, 1, 0, 0, 4]

/-- IRQN in PULSE mode with the CLOCK group enabled, its causes clear, and TICK at every second. -/
def ticking : State :=
  (secondOver live).withAttention
    { live.attention with
      groups := live.attention.groups.set 3 { enabled := true, level := 3 }
      irqMode := .pulse, tickPeriod := .second, invalidCause := false }

theorem test_witness_AttentionDrivesIrqn :
    ((asking live .main .configureAttention pulsePayload).asks .main .configureAttention 1 pulsePayload ∧
      live.allows .main .config = true ∧ (readAttentionConfig pulsePayload).map AttentionConfig.irqMode = some .pulse ∧
      (readAttentionConfig levelPayload).map AttentionConfig.irqMode = some .level) ∧
    (live.running = true ∧ live.attention.irqMode = .level) ∧
    (exec .secondBoundary ticking = .next ticking.secondBoundary ∧ ticking.running = true ∧
      ticking.secondBoundary.running = true ∧ ticking.attention.irqMode = .pulse ∧
      ticking.secondBoundary.attention.irqMode = .pulse ∧ ticking.groupAsserts .clock = false ∧
      ticking.secondBoundary.groupAsserts .clock = true) ∧
    (ticking.withAttention { ticking.attention with pulse := true }).irqAsserted = true :=
  ⟨⟨asking_asks _ _ _ _ rfl, rfl, by decide +kernel, by decide +kernel⟩, ⟨rfl, rfl⟩,
    ⟨rfl, rfl, by decide +kernel, rfl, by decide +kernel, by decide +kernel, by decide +kernel⟩, rfl⟩

theorem test_witness_SetPanelPolicyReplaces :
    (asking live .panel .setPanelPolicy [3]).asks .panel .setPanelPolicy 1 [3] ∧
    ((asking live .main .setPanelPolicy [16]).asks .main .setPanelPolicy 1 [16] ∧ ∃ b ∈ [(16 : Byte)], 15 < b.toNat) ∧
    ((asking live .main .setPanelPolicy []).asks .main .setPanelPolicy 1 [] ∧ ([] : List Byte).length ≠ 1) ∧
    (asking live .main .setPanelPolicy [15]).asks .main .setPanelPolicy 1 [15] ∧ (15 : Byte).toNat ≤ 15 :=
  ⟨asking_asks _ _ _ _ rfl, ⟨asking_asks _ _ _ _ rfl, by decide⟩, ⟨asking_asks _ _ _ _ rfl, by decide⟩,
    asking_asks _ _ _ _ rfl, by decide⟩

/-! ### Witnesses: seconds, sweeps and resyncs -/

theorem test_witness_SecondBoundaryCounts :
    ((secondOver busy).running = true ∧ (secondOver busy).timebase.state = .running ∧
      100 ≤ (secondOver busy).timebase.subSecond ∧ ((secondOver busy).slot 3).entry = some running ∧
      ((secondOver clockless).running = true ∧ (secondOver clockless).timebase.state = .running ∧
        (secondOver clockless).clock.valid = false) ∧
      (timeIs busy 8 30 58).clock.second < 59 ∧ 59 ≤ (timeIs busy 8 58 59).clock.second ∧
      (timeIs busy 8 58 59).clock.minute < 59 ∧ (timeIs busy 22 59 59).clock.hour < 23 ∧
      59 ≤ (timeIs busy 23 59 59).clock.minute ∧ 23 ≤ (timeIs busy 23 59 59).clock.hour) ∧
    ((secondOver onBackup).supply = .backup ∧ (secondOver onBackup).timebase.state = .running ∧
      100 ≤ (secondOver onBackup).timebase.subSecond ∧ (secondOver onBackup).clock.valid = true) ∧
    (({ secondOver busy with inReset := true } : State).supply = .normal ∧
      ({ secondOver busy with inReset := true } : State).timebase.state = .running ∧
      ({ secondOver busy with inReset := true } : State).inReset = true) ∧
    State.reset.timebase.state ≠ .running ∧ busy.timebase.subSecond < 100 := by decide +kernel

/-- R160, R161: a boundary that comes after the divider has been restarted does not count. -/
theorem test_restarted_second_does_not_count :
    ((secondOver live).secondBoundary.clock.second = 16 ∧ (secondOver live).secondBoundary.secondDue = false) ∧
    (secondOver live).restartDivider.secondBoundary = (secondOver live).restartDivider := by decide +kernel

def eightThirty : Minute := { date := monday, time := { hour := 8, minute := 30 } }
def midnight : Minute := { date := monday, time := { hour := 0, minute := 0 } }

/-- The span until the day before. -/
def pastSpan : Definition := { span with untilDate := some monday.previous }

def sweeping (m : Minute) (cursor : Nat) (e : Entry) : State := working (holding live 255 e) (.sweep m cursor)

theorem test_witness_SweepVisitStarts :
    ((sweeping eightThirty 255 (armed event)).running = true ∧ (sweeping eightThirty 255 (armed event)).engine.wipe = none ∧
      (sweeping eightThirty 255 (armed event)).engine.work = .sweep eightThirty (255 : SlotNo).val ∧
      ((sweeping eightThirty 255 (armed event)).slot 255).entry = some (armed event)) ∧
    ((working live (.sweep eightThirty 255)).slot 255).entry = none ∧
    (midnight.time = { hour := 0, minute := 0 } ∧ (armed pastSpan).defn.pastUntil midnight.date = true ∧
      (armed pastSpan).state = .armed ∧ (armed pastSpan).defn.autofree = false) ∧
    (eightThirty.time ≠ { hour := 0, minute := 0 } ∧ (armed span).admissionDue = false ∧ (armed span).remBudget ≠ some 0 ∧
      (armed span).defn.start ≠ eightThirty.time) ∧
    ((armed event).remBudget ≠ some 0 ∧ (armed event).defn.start = eightThirty.time ∧
      (armed event).defn.matchesClass live.dates.today = true ∧ (armed event).defn.validOn monday = true ∧
      (armed event).stamp ≠ some { date := monday, time := event.start } ∧
      ((sweeping eightThirty 255 (armed event)).list event.channel).length < Config.claimCapacity) := by decide +kernel

/-- The other cases of an ARMED entry: admission due, no budget left, each test of the start that fails alone, a full list, and
the steps of an admission. -/
theorem test_witness_SweepVisitStarts_more :
    (newEntry event .main).admissionDue = true ∧ (newEntry event .main).state = .armed ∧
    ({ armed event with remBudget := some 0 }.remBudget = some 0 ∧
      { armed event with remBudget := some 0 }.admissionDue = false) ∧
    ({ event with daySet := 2 }.matchesClass live.dates.today = false ∧
      { event with daySet := 2 }.start = eightThirty.time) ∧
    { event with fromDate := some monday.next }.validOn eightThirty.date = false ∧
    { armed event with stamp := some { date := monday, time := event.start } }.stamp =
      some { date := eightThirty.date, time := event.start } ∧
    ((placeInList ((listIs (sweeping eightThirty 255 (armed { event with priority := 4 })) 0 fullList).list event.channel)
      (entryClaim 255 { event with priority := 4 })).kept = false) ∧
    ((placeInList fullList (entryClaim 255 event)).displaced.map Claim.source = some (.entry 7) ∧
      (placeInList fullPortList (entryClaim 255 event)).displaced.map Claim.source = some (.port .panel)) ∧
    (newEntry event .main).admissible live.dates monday eightThirty = some monday ∧
    (newEntry later .main).admissible live.dates monday eightThirty = none ∧
    ({ suspended with state := .armed, admissionDue := true, rejoin := true }.rejoinWindow eightThirty).isSome = true ∧
    (span.freedWhenSpent ↔ False) ∧ ({ span with autofree := true, notify := 0 }.freedWhenSpent ↔ True) := by
  unfold Definition.freedWhenSpent
  decide +kernel

/-- R28 and R44: a 08:30 start of Monday's sweep, visited when the set already holds Tuesday as today's class, is judged by Tuesday. -/
theorem test_start_check_reads_class_as_it_stands :
    ((((sweeping eightThirty 255 (armed { event with daySet := 2 })).withDates { records := [], today := .weekday 1 }).sweepStep.slot
      255).entry.map Entry.state) = some .active := by decide +kernel

def fivePm : Minute := { date := monday, time := { hour := 17, minute := 0 } }

theorem test_witness_OccurrencesEnd :
    ((sweeping fivePm 255 running).running = true ∧ (sweeping fivePm 255 running).engine.wipe = none ∧
      (sweeping fivePm 255 running).engine.work = .sweep fivePm (255 : SlotNo).val ∧
      ((sweeping fivePm 255 running).slot 255).entry = some running ∧ running.state = .active ∧
      running.defn.kind = .span { hour := 17, minute := 0 } ∧ running.endDue = some fivePm ∧
      running.defn.autofree = false) ∧
    (running.endDue ≠ some eightThirty ∧ eightThirty.time ≠ { hour := 0, minute := 0 }) ∧
    (((holding live 3 (counting 0)).slot 3).entry = some (counting 0) ∧ (counting 0).state = .active ∧
      (counting 0).defn.kind = .event 3600 ∧ (counting 0).interrupted = false ∧ (counting 0).remSeconds = 0 ∧
      (counting 0).defn.autofree = false ∧ 0 < (counting 1).remSeconds) ∧
    ({ counting 0 with defn := { event with autofree := true, notify := 0 }, remBudget := some 0 }.defn.autofree = true ∧
      { event with autofree := true, notify := 0 }.notify &&& EntryCause.spent.bit = 0) ∧
    (midnight.time = { hour := 0, minute := 0 } ∧ { running with defn := pastSpan }.defn.pastUntil midnight.date = true ∧
      { running with defn := pastSpan }.state = .active ∧ { running with defn := pastSpan }.endDue ≠ some midnight ∧
      { running with defn := pastSpan }.final = false) ∧
    (pastSpan.autofree = false ∧ { pastSpan with autofree := true, notify := 0 }.autofree = true) := by decide +kernel

def resyncAt (i : SlotNo) (e : Entry) : State := working (holding live i e) (resyncing i.val)

def captured : Moment := { date := monday, time := { hour := 8, minute := 30 }, second := 15 }

/-- An EVENT of 07:00, skipped at 08:30. -/
def skippedEvent (catchUp : Bool) : Definition := { event with start := { hour := 7, minute := 0 }, catchUp := catchUp }

theorem test_witness_ResyncVisitCatchesUp :
    ((resyncAt 3 { running with held := false }).running = true ∧
      (resyncAt 3 { running with held := false }).engine.work = .resync captured { first := 0, last := 510 } (3 : SlotNo).val ∧
      ((resyncAt 3 { running with held := false }).slot 3).entry = some { running with held := false } ∧
      inWindow monday span.start { hour := 17, minute := 0 } captured.minuteOf = true ∧
      span.pastUntil captured.date = false) ∧
    ((working live (resyncing 255)).slot 255).entry = none ∧
    ((armed span).state = .armed ∧ (armed span).rejoin = false ∧ (armed span).remBudget ≠ some 0 ∧
      span.openWindow { hour := 17, minute := 0 } none live.dates monday captured.minuteOf = some monday) ∧
    ((skippedEvent true).startsToday live.dates monday = true ∧
      (armed (skippedEvent true)).stamp ≠ some { date := monday, time := (skippedEvent true).start } ∧
      (skippedEvent true).start ≠ captured.time ∧ (skippedEvent true).start.ofDay ≤ 510 ∧
      (skippedEvent true).catchUp = true ∧ (skippedEvent false).catchUp = false ∧
      (skippedEvent false).pastUntil captured.date = false) := by decide +kernel

/-- A span of 06:00 to 07:00, skipped whole at 08:30. -/
def skippedSpan : Definition := { span with start := { hour := 6, minute := 0 }, kind := .span { hour := 7, minute := 0 } }

/-- The other cases: a SPAN whose window is over and one that stays final, an EVENT that counts and one that is restart-pending, an
ARMED entry past its until date, one that rejoins, one with no budget, a SPAN that MISSED and one that did not, an EVENT that starts
at T's minute and one that does not start that day. -/
theorem test_witness_ResyncVisitCatchesUp_more :
    (inWindow monday span.start { hour := 8, minute := 20 } captured.minuteOf = false ∧
      { running with defn := pastSpan }.defn.pastUntil captured.date = true ∧ running.final = false) ∧
    ((counting 5).interrupted = false ∧ { counting 5 with interrupted := true }.interrupted = true ∧
      (counting 5).remBudget ≠ some 0 ∧ { counting 5 with remBudget := some 0 }.remBudget = some 0) ∧
    (armed pastSpan).defn.pastUntil captured.date = true ∧
    ({ suspended with state := .armed, admissionDue := true, rejoin := true }.rejoinWindow captured.minuteOf).isSome = true ∧
    ((armed event).rejoinWindow captured.minuteOf = none ∧ { armed event with remBudget := some 0 }.remBudget = some 0) ∧
    (skippedSpan.openWindow { hour := 7, minute := 0 } none live.dates monday captured.minuteOf = none ∧
      skippedSpan.start.ofDay ≤ ({ hour := 7, minute := 0 } : DayMinute).ofDay ∧
      skippedSpan.startsOn live.dates monday captured.date = true ∧
      (armed skippedSpan).stamp ≠ some { date := monday, time := skippedSpan.start } ∧
      Skipped.covers { first := 0, last := 510 } skippedSpan.start = true ∧
      Skipped.covers { first := 0, last := 510 } { hour := 7, minute := 0 } = true) ∧
    (later.openWindow { hour := 17, minute := 0 } none live.dates monday captured.minuteOf = none ∧
      Skipped.covers { first := 0, last := 510 } { hour := 17, minute := 0 } = false) ∧
    (event.start = captured.time ∧ event.startsToday live.dates captured.date = true ∧
      (armed event).stamp ≠ some { date := monday, time := event.start }) ∧
    { event with daySet := 2 }.startsToday live.dates captured.date = false := by decide +kernel

theorem test_witness_WorkCompletes :
    (live.running = true ∧ (working live (.sweep eightThirty 256)).engine.work = .sweep eightThirty 256 ∧
      (working live (.sweep eightThirty 256)).engine.wipe = none ∧ 255 < 256 ∧ 256 ≤ 256) ∧
    (∃ T skipped, (working live (resyncing 256)).engine.work = .resync T skipped 256 ∧
      eightThirty = { date := T.date, time := T.time }) ∧
    Command.readEntry.isTable = true ∧
      (asking (working live (resyncing 256)) .panel .readEntry [3]).asks .panel .readEntry 1 [3] :=
  ⟨by decide +kernel, ⟨_, _, rfl, rfl⟩, rfl, asking_asks _ _ _ _ rfl⟩

/-! ### Witnesses: timers and pins -/

theorem test_witness_ChannelTimersExpire :
    (live.supply = .normal ∧ onBackup.supply ≠ .normal ∧ (live.channel 0).commanded = .off ∧
      ((guarding none 0).channel 0).commanded = .on) ∧
    live.running = true ∧
    (((guarding (some .off) 0).channel 0).state = .guarding ∧ ((guarding (some .off) 0).channel 0).guard = 0 ∧
      ((guarding (some .off) 0).channel 0).pending = some .off ∧
      Action.off ≠ ((guarding (some .off) 0).channel 0).commanded) ∧
    ((guarding none 0).channel 0).pending = none ∧ (live.channel 0).state ≠ .guarding ∧
    0 < ((guarding none 1).channel 0).guard ∧ (live.channel 0).wave = .steady ∧
    ((pulsing .onPhase { onWidth := 1, offWidth := 1, burst := 0 } 0).channel 0).wave = .onPhase ∧
    ((pulsing .offPhase { onWidth := 1, offWidth := 1, burst := 0 } 0).channel 0).wave = .offPhase ∧
    (((pulsing .offPhase { onWidth := 1, offWidth := 1, burst := 1 } 0).channel 0).commanded =
        .pulse { onWidth := 1, offWidth := 1, burst := 1 } ∧
      ((pulsing .offPhase { onWidth := 1, offWidth := 1, burst := 1 } 0).channel 0).wave = .offPhase ∧
      ((pulsing .offPhase { onWidth := 1, offWidth := 1, burst := 1 } 0).channel 0).phaseTicks = 0) ∧
    ((pulsing .resting { onWidth := 1, offWidth := 1, burst := 1 } 0).channel 0).wave = .resting ∧
    0 < ((pulsing .onPhase { onWidth := 1, offWidth := 1, burst := 0 } 1).channel 0).phaseTicks := by decide +kernel

theorem test_witness_ProofMonitorJudges :
    (live.running = true ∧ ((judging .settling 0).channel 0).proof = .settling ∧
      ((judging .settling 0).channel 0).proofTicks = 0 ∧ ((judging .disagree 0).channel 0).proof = .disagree ∧
      ((judging .settling 0).pins.senses[(0 : Chan)] != ((judging .settling 0).config 0).invertedSense) ≠
        decide (((judging .settling 0).channel 0).commanded = .on)) ∧
    (((judging .settling 0).withPins { live.pins with senses := Vector.replicate 24 true }).pins.senses[(0 : Chan)] !=
        ((judging .settling 0).config 0).invertedSense) = decide (((judging .settling 0).channel 0).commanded = .on) ∧
    ((live.channel 0).proof ≠ .settling ∧ (live.channel 0).proof ≠ .disagree) ∧
    0 < ((judging .settling 1).channel 0).proofTicks ∧ onBackup.running = false ∧
    ((judging .agree 0).channel 0).proof = .agree ∧
      (false != ((judging .agree 0).config 0).invertedSense) ≠ decide (((judging .agree 0).channel 0).commanded = .on) ∧
      (true != ((judging .agree 0).config 0).invertedSense) = decide (((judging .agree 0).channel 0).commanded = .on) := by
  decide +kernel

/-- A timer of one tick is not due when it starts and is due after that tick (R121, R137). -/
theorem test_timers_of_one_tick :
    (pulsing .onPhase { onWidth := 1, offWidth := 1, burst := 0 } 1).dueRows = [] ∧
      (pulsing .onPhase { onWidth := 1, offWidth := 1, burst := 0 } 1).tick.dueRows = [.pulsePhaseEnd 0] ∧
      (pressed .momentary 1).dueRows = [] ∧ (pressed .momentary 1).tick.dueRows = [.debounceExpiry 7] := by decide +kernel

/-- R144 and R146: a debounce that has run out and whose expiry is still to be taken is not restarted by BIND_INPUT, and READ_INPUT
does not show it idle; one that runs is restarted with the time 5 of the new binding. -/
theorem test_bind_before_expiry :
    (((pressed .momentary 0).bindInput 7 bound).debounceDue 7 = true ∧
      (((pressed .momentary 3).bindInput 7 bound).input 7).debounceLeft = some 5) ∧
    debounceShown ((pressed .momentary 0).input 7).debounceLeft = 1 := by decide +kernel

theorem test_witness_InputsAreQualified :
    (onBackup.running = false ∧ live.running = true ∧ true = (live.input 7).stable ∧ false ≠ (live.input 7).stable ∧
      (live.input 7).debounceLeft = none ∧ (pressed .momentary 1).input 7 ≠ live.input 7) ∧
    ((live.input 7).debounceLeft ≠ some 0 ∧ ((pressed .momentary 1).input 7).debounceLeft ≠ some 0) ∧
    ((pressed .momentary 0).running = true ∧ ((pressed .momentary 0).input 7).debounceLeft = some 0 ∧
      (pressed .momentary 0).pins.inputs[(7 : InputNo)] ≠ ((pressed .momentary 0).input 7).stable) ∧
    (((pressed .momentary 0).binding 7).enabled = true ∧ (pressed .momentary 0).clock.valid = true ∧
      ((pressed .momentary 0).binding 7).mask.getLsbD (23 : Chan).val = true ∧
      ((pressed .momentary 0).binding 7).mask.getLsbD (22 : Chan).val = false) ∧
    (((pressed .momentary 0).withBinding 7 Binding.cold).binding 7).enabled = false := by decide +kernel

/-- What a PRESS does in each mode, with a claim of the input standing and with none; and a full list, on channel 0, in which the
input's claim of priority 9 pushes out the entry's that stands last, and one of priority 4 is not kept. -/
theorem test_witness_InputsAreQualified_modes :
    Mode.momentary.act true false = .place ∧ Mode.momentary.act false true = .remove ∧
      (Mode.timed 5).act true true = .place ∧ (Mode.timed 5).act false true = .keep ∧
      Mode.toggle.act true true = .remove ∧ Mode.toggle.act true false = .place ∧
      Mode.untilEdge.act true true = .remove ∧ Mode.untilEdge.act true false = .place ∧
      (placeInList ((listIs (pressed .toggle 0) 0 fullList).list 0) (bound.claim 7)).displaced.map Claim.source =
        some (.entry 7) ∧
      (placeInList ((listIs (pressed .toggle 0) 0 fullList).list 0) ({ bound with priority := 4 }.claim 7)).kept =
        false := by decide +kernel

/-! ### Witnesses: crystal, reset and supply -/

theorem test_witness_CrystalMovesTimebase :
    (State.reset.supply ≠ .cold ∧ State.reset.timebase.state = .off) ∧
    (State.reset.setTimebase .starting).timebase.state = .starting ∧
    (clockless.supply ≠ .cold ∧ clockless.timebase.state = .running ∧ clockless.clock.valid = false) ∧
    (onBackup.supply = .backup ∧ onBackup.timebase.state = .running ∧ onBackup.clock.valid = true) ∧
    (busy.running = true ∧ busy.timebase.state = .running ∧ busy.clock.valid = true ∧
      (busy.slot 3).entry = some running ∧ (busy.slot 4).entry = none) ∧
    busy.supply = .normal ∧ ({ busy with inReset := true } : State).inReset = true := by decide +kernel

theorem test_witness_MainResetAndRestart :
    (busy.running = true ∧ (busy.slot 3).entry = some running) ∧
    (({ busy with inReset := true } : State).supply = .normal ∧ ({ busy with inReset := true } : State).inReset = true ∧
      (({ busy with inReset := true } : State).slot 3).entry = some running ∧
      ({ busy with inReset := true } : State).clock.valid = true ∧
      ({ busy with inReset := true } : State).engine.wipe = none) ∧
    ({ clockless with inReset := true } : State).clock.valid = false := by decide +kernel

theorem test_witness_SuppliesMoveTheState :
    (busy.supply = .normal ∧ busy.pins.vbak = true) ∧
    ((live.withPins { live.pins with vbak := false }).supply = .normal ∧
      (live.withPins { live.pins with vbak := false }).pins.vbak = false) ∧
    (onBackup.supply = .backup ∧ onBackup.pins.rstnLow = false ∧ onBackup.clock.valid = true) ∧
    (onBackup.withPins { live.pins with rstnLow := true }).pins.rstnLow = true ∧
    (onBackup.withClock Clock.cold).clock.valid = false ∧ inCold.supply = .cold ∧
    (inCold.withPins { live.pins with rstnLow := true }).supply = .cold := by decide +kernel

/-! ### Witnesses: the invariants, at a state with an ACTIVE entry whose claim stands -/

theorem busy_slot (i : SlotNo) : (busy.slot i).entry = if i = 3 then some running else none := by
  revert i
  decide +kernel

theorem test_witness_StepKeepsListsSound : busy.ListsSound ∧ step busy = .next busy.idleStep := by
  refine ⟨?_, rfl⟩
  unfold State.ListsSound ListSound
  decide +kernel

theorem test_witness_StepKeepsDatesAndClockSound :
    holidays.DatesSound ∧ holidays.ClockSound ∧ step holidays = .next holidays.idleStep := by
  refine ⟨?_, ?_, rfl⟩
  · unfold State.DatesSound
    decide
  · unfold State.ClockSound
    decide

theorem test_witness_StepKeepsChannelsSound : (judging .agree 0).ChannelsSound ∧ step (judging .agree 0) = .next (judging .agree 0).idleStep := by
  refine ⟨?_, rfl⟩
  unfold State.ChannelsSound ChannelSound
  decide +kernel

theorem test_witness_StepKeepsEntriesSound : busy.EntriesSound ∧ step busy = .next busy.idleStep := by
  refine ⟨fun i e h => ?_, rfl⟩
  rw [busy_slot] at h
  split at h
  · cases h
    exact ⟨test_witness_DescriptorRoundTrip.1, by decide, by decide, by decide, by decide, by decide⟩
  · cases h

theorem test_witness_StepKeepsNoticesAndRestSound :
    (holding noticed 255 (armed span)).NoticesSound ∧ (holding noticed 255 (armed span)).RestSound ∧
      ({ State.reset with supply := .backup, attention := Attention.reset } : State).RestSound ∧
      step (holding noticed 255 (armed span)) = .next (holding noticed 255 (armed span)).idleStep := by
  refine ⟨⟨by decide +kernel, fun h => (nomatch h)⟩, fun h => (nomatch h), fun _ => ?_, rfl⟩
  exact ⟨rfl, rfl, by decide +kernel, rfl, rfl, rfl, rfl⟩

theorem reset_empty (i : SlotNo) : (State.reset.slot i).entry = none := by
  revert i
  decide +kernel

theorem test_witness_StepKeepsQuietWhileInvalid :
    State.reset.RestSound ∧ State.reset.QuietSound ∧ State.reset.running = true ∧ State.reset.clock.valid = false ∧
      step State.reset = .next State.reset.idleStep := by
  refine ⟨fun h => (nomatch h), fun _ _ => ⟨by decide +kernel, fun i e h => ?_, rfl, rfl, rfl⟩, rfl, rfl, rfl⟩
  rw [reset_empty] at h
  cases h

theorem busy_list (c : Chan) : busy.list c = if c = 0 then [claimThree] else [] := by
  revert c
  decide +kernel

theorem test_witness_StepKeepsClaimsSound : busy.ListsSound ∧ busy.ClaimsSound ∧ step busy = .next busy.idleStep := by
  refine ⟨test_witness_StepKeepsListsSound.1, ⟨fun c k hk => ?_, fun i e h _ _ => ?_, fun h => (nomatch h)⟩, rfl⟩
  · rw [busy_list] at hk
    split at hk
    · obtain rfl := List.mem_singleton.1 hk
      refine ⟨fun i hi => ?_, rfl⟩
      cases hi
      exact ⟨running, by decide +kernel, rfl, rfl, by simp_all [running, armed, newEntry, span], rfl, rfl⟩
    · cases hk
  · rw [busy_slot] at h
    split at h
    · next hi =>
      subst hi
      cases h
      exact ⟨fun _ => by decide +kernel, fun _ => rfl⟩
    · cases h

theorem test_witness_StepKeepsWipedSlotsEmpty :
    ((wiping busy 3).WipeSound ∧ step (wiping busy 3) = .next (wiping busy 3).idleStep) ∧
    (wiping live 256).WipeSound ∧ (wiping live 256).running = true ∧
      (∃ w, (wiping live 256).engine.wipe = some w ∧ 256 ≤ w.cursor) ∧
      ∃ t, exec (.wipeComplete []) (wiping live 256) = .next t := by
  refine ⟨⟨fun w hw i hi => ?_, rfl⟩, fun w hw i _ => reset_empty i, rfl, ⟨_, rfl, by decide⟩, _, rfl⟩
  cases hw
  have h := busy_slot i
  rw [if_neg (by rintro rfl; exact absurd hi (by decide))] at h
  exact h

end Sys2Proof.Tests
end

section
/-! PROOFS. The ends of SUBMIT transactions (sections 11.3 and 11.6) and SET_PANEL_POLICY (section 11.5). -/

namespace Sys2Proof.Machine

/-! ### A port and its slot -/

theorem State.answers_iff {s : State} {p : Port} :
    s.answers p = true ↔ s.running = true ∧ (s.port p).listening = true := by
  simp [State.answers]

theorem State.withPort_withPort (s : State) (p : Port) (x y : PortState) :
    (s.withPort p x).withPort p y = s.withPort p y := by
  cases p <;> rfl

theorem State.request_of_slot {s : State} {p : Port} {r : Request} (h : (s.port p).slot = .pending r) :
    s.request p = some r := by
  simp [State.request, h]

/-! ### Ends of transactions (R190, R197, R202) -/

theorem State.endTransaction_receiving {s : State} {p : Port} {bytes : List Byte}
    (h : (s.port p).slot = .receiving bytes) :
    s.endTransaction p = s.withPort p { s.port p with slot := .idle, truncated := true } := by
  simp [State.endTransaction, h]

theorem State.endTransaction_of_not_receiving {s : State} {p : Port}
    (h : ∀ bytes, (s.port p).slot ≠ .receiving bytes) : s.endTransaction p = s := by
  unfold State.endTransaction
  split
  · next bytes hs => exact absurd hs (h bytes)
  all_goals rfl

theorem exec_submitTruncated (p : Port) (s : State) :
    exec (.submitTruncated p) s = .next (if s.answers p then s.endTransaction p else s) := rfl

theorem exec_csnRises (s : State) : exec .csnRises s = .next (s.regainFooting .main) := rfl

theorem exec_startCondition (s : State) : exec .startCondition s = .next (s.regainFooting .panel) := rfl

theorem exec_submitTruncated_receiving {s : State} {p : Port} {bytes : List Byte} (ha : s.answers p = true)
    (hs : (s.port p).slot = .receiving bytes) :
    exec (.submitTruncated p) s = .next (s.withPort p { s.port p with slot := .idle, truncated := true }) := by
  rw [exec_submitTruncated, if_pos ha, State.endTransaction_receiving hs]

theorem exec_submitTruncated_of_not_receiving {s : State} {p : Port} (hs : ∀ bytes, (s.port p).slot ≠ .receiving bytes) :
    exec (.submitTruncated p) s = .next s := by
  rw [exec_submitTruncated, State.endTransaction_of_not_receiving hs, ite_self]

theorem State.regainFooting_of_running {s : State} (h : s.running = true) (p : Port) :
    s.regainFooting p = (s.endTransaction p).withPort p { (s.endTransaction p).port p with listening := true } := by
  unfold State.regainFooting
  rw [if_pos h]

/-- A port that answers has its footing already, so regaining it leaves the end of the transaction alone. -/
theorem State.regainFooting_receiving {s : State} {p : Port} {bytes : List Byte} (ha : s.answers p = true)
    (hs : (s.port p).slot = .receiving bytes) :
    s.regainFooting p = s.withPort p { s.port p with slot := .idle, truncated := true } := by
  obtain ⟨hr, hl⟩ := State.answers_iff.1 ha
  rw [State.regainFooting_of_running hr, State.endTransaction_receiving hs, State.withPort_withPort,
    State.withPort_port_self, ← hl]

theorem State.regainFooting_of_not_receiving {s : State} {p : Port} (hr : s.running = true)
    (hs : ∀ bytes, (s.port p).slot ≠ .receiving bytes) :
    s.regainFooting p = s.withPort p { s.port p with listening := true } := by
  rw [State.regainFooting_of_running hr, State.endTransaction_of_not_receiving hs]

/-- Settles O13: the end of a transaction, whichever row brings it, moves a RECEIVING slot alone. -/
theorem frameCutShort : Obligations.FrameCutShort := by
  unfold Obligations.FrameCutShort
  refine ⟨fun s bytes ha hs => ⟨?_, ?_⟩, fun s bytes ha hs => ⟨?_, ?_⟩,
    fun s hr => ⟨fun hs => ⟨?_, true, ?_⟩, fun hs => ⟨?_, true, ?_⟩⟩⟩
  · exact exec_submitTruncated_receiving (p := .main) ha hs
  · exact (exec_csnRises s).trans (congrArg _ (State.regainFooting_receiving (p := .main) ha hs))
  · exact exec_submitTruncated_receiving (p := .panel) ha hs
  · exact (exec_startCondition s).trans (congrArg _ (State.regainFooting_receiving (p := .panel) ha hs))
  · exact exec_submitTruncated_of_not_receiving (p := .main) hs
  · exact (exec_csnRises s).trans (congrArg _ (State.regainFooting_of_not_receiving (p := .main) hr hs))
  · exact exec_submitTruncated_of_not_receiving (p := .panel) hs
  · exact (exec_startCondition s).trans (congrArg _ (State.regainFooting_of_not_receiving (p := .panel) hr hs))

/-! ### The answer to a request (R191, R198) -/

/-- A request that stands is answered with what the body makes of it, when the body leaves the port alone. -/
theorem State.serve_asks {s : State} {p : Port} {c : Command} {tag : Byte} {payload : List Byte} {body : Body}
    (h : s.asks p c tag payload) (hp : (body payload s).1.port p = s.port p) :
    s.serve c p body = (body payload s).1.answered p tag (body payload s).2 := by
  obtain ⟨hr, hs⟩ := h
  exact State.serve_eq hr (State.request_of_slot hs) rfl hp

theorem State.serve_refuse {s : State} {p : Port} {c : Command} {tag : Byte} {payload : List Byte} {body : Body}
    {status : Status} (h : s.asks p c tag payload) (hb : body payload s = s.refuse status) :
    s.serve c p body = s.answered p tag (Reply.refusal status) := by
  have hp : (body payload s).1.port p = s.port p := by rw [hb]; rfl
  rw [State.serve_asks h hp, hb]
  rfl

/-! ### The subset of permissions (R200, R205) -/

theorem readPolicy_of_length_ne {payload : List Byte} (h : payload.length ≠ 1) : readPolicy payload = none := by
  unfold readPolicy
  rw [if_neg (fun hc => h hc.1)]

theorem readPolicy_singleton (b : Byte) :
    readPolicy [b] = if b.toNat ≤ 15 then some (BitVec.ofNat 4 b.toNat) else none := by
  simp [readPolicy, natAt, byteAt]

/-- A payload of another length, or one byte with a bit above the four permissions, is no subset. -/
theorem readPolicy_eq_none {payload : List Byte} (h : payload.length ≠ 1 ∨ ∃ b ∈ payload, 15 < b.toNat) :
    readPolicy payload = none := by
  by_cases hl : payload.length = 1
  · obtain ⟨a, rfl⟩ := List.length_eq_one_iff.1 hl
    have ha : 15 < a.toNat := by simpa using h
    rw [readPolicy_singleton, if_neg (by omega)]
  · exact readPolicy_of_length_ne hl

/-- A byte that names permissions alone is read and shown again without loss. -/
theorem byteOf_policy {b : Byte} (h : b.toNat ≤ 15) : byteOf (BitVec.ofNat 4 b.toNat).toNat = b := by
  apply BitVec.eq_of_toNat_eq
  simp only [byteOf, BitVec.toNat_ofNat]
  omega

/-! ### SET_PANEL_POLICY (R200) -/

theorem exec_setPanelPolicy (p : Port) (s : State) :
    exec (.setPanelPolicy p) s = .next (s.serve .setPanelPolicy p (setPanelPolicyBody p)) := rfl

theorem setPanelPolicyBody_panel (payload : List Byte) (s : State) :
    setPanelPolicyBody .panel payload s = s.refuse .denied := rfl

theorem setPanelPolicyBody_unread {payload : List Byte} (h : readPolicy payload = none) (s : State) :
    setPanelPolicyBody .main payload s = s.refuse .badArg := by
  simp [setPanelPolicyBody, h]

theorem setPanelPolicyBody_read {payload : List Byte} {policy : BitVec 4} (h : readPolicy payload = some policy)
    (s : State) :
    setPanelPolicyBody .main payload s =
      (s.withPolicy policy, Reply.ok [byteOf s.policy.toNat, byteOf policy.toNat]) := by
  simp [setPanelPolicyBody, h]

/-- Settles O41, by what the payload reads as on each port. -/
theorem setPanelPolicyReplaces : Obligations.SetPanelPolicyReplaces := by
  unfold Obligations.SetPanelPolicyReplaces
  refine ⟨fun s tag payload h => ?denied, fun s tag payload h hbad => ?badArg, fun s tag b h hb => ?replaced⟩
  case denied => rw [exec_setPanelPolicy, State.serve_refuse h (setPanelPolicyBody_panel payload s)]
  case badArg =>
    rw [exec_setPanelPolicy, State.serve_refuse h (setPanelPolicyBody_unread (readPolicy_eq_none hbad) s)]
  case replaced =>
    have hread : readPolicy [b] = some (BitVec.ofNat 4 b.toNat) := by rw [readPolicy_singleton, if_pos hb]
    have hbody := setPanelPolicyBody_read hread s
    have hport : (setPanelPolicyBody .main [b] s).1.port .main = s.port .main := by
      rw [hbody, State.withPolicy_port]
    rw [exec_setPanelPolicy, State.serve_asks h hport, hbody, byteOf_policy hb]
    rfl

end Sys2Proof.Machine
end

section
/-! PROOFS. The layout of frames, their CRC and the status codes they carry (sections 12.1 and 12.6). -/

namespace Sys2Proof.Machine

/-! ### The CRC register (R204) -/

theorem crc_append_singleton (bytes : List Byte) (b : Byte) : crc (bytes ++ [b]) = crcByte (crc bytes) b := by
  simp [crc]

@[simp] theorem crcShift_zero : crcShift 0#8 = 0#8 := by decide

/-- Combining the register with its own value clears it, and a clear register stays clear through the eight shifts. -/
@[simp] theorem crcByte_self (r : Byte) : crcByte r r = 0 := by
  simp only [crcByte, BitVec.xor_self, crcShift_zero, BitVec.ofNat_eq_ofNat]

/-! ### A run of bytes closed by its CRC -/

@[simp] theorem length_closeFrame (body : List Byte) : (closeFrame body).length = body.length + 1 := by
  simp [closeFrame]

@[simp] theorem take_length_closeFrame (body : List Byte) : (closeFrame body).take body.length = body := by
  simp [closeFrame]

@[simp] theorem byteAt_length_closeFrame (body : List Byte) : byteAt (closeFrame body) body.length = crc body := by
  simp [byteAt, closeFrame]

@[simp] theorem crc_closeFrame (body : List Byte) : crc (closeFrame body) = 0 := by
  rw [closeFrame, crc_append_singleton, crcByte_self]

/-- The last byte of a closed run is the CRC of the bytes before it. -/
theorem byteAt_closeFrame_eq_crc_take {body : List Byte} {n : Nat} (h : body.length = n) :
    byteAt (closeFrame body) n = crc ((closeFrame body).take n) := by
  subst h
  rw [byteAt_length_closeFrame, take_length_closeFrame]

/-! ### Frames (R203) -/

/-- The bytes of a frame before its CRC; `code` is a command code in a request and a status code in a response. -/
def frameBody (tag code : Byte) (payload : List Byte) : List Byte :=
  [tag, code, byteOf payload.length] ++ payload

theorem responseFrame_eq (tag : Byte) (reply : Reply) :
    responseFrame tag reply = closeFrame (frameBody tag reply.status.code reply.payload) := rfl

theorem requestFrame_eq (r : Request) : requestFrame r = closeFrame (frameBody r.tag r.code r.payload) := rfl

@[simp] theorem length_frameBody (tag code : Byte) (payload : List Byte) :
    (frameBody tag code payload).length = payload.length + 3 := by
  simp [frameBody]

theorem byteAt_zero_frame (tag code : Byte) (payload : List Byte) :
    byteAt (closeFrame (frameBody tag code payload)) 0 = tag := rfl

theorem byteAt_one_frame (tag code : Byte) (payload : List Byte) :
    byteAt (closeFrame (frameBody tag code payload)) 1 = code := rfl

/-- The limit of 60 is what lets the length byte hold the length without loss. -/
theorem natAt_two_frame (tag code : Byte) {payload : List Byte} (h : payload.length ≤ Config.maxPayload) :
    natAt (closeFrame (frameBody tag code payload)) 2 = payload.length := by
  have hlt : payload.length < 2 ^ 8 := Nat.lt_of_le_of_lt h (by decide)
  calc natAt (closeFrame (frameBody tag code payload)) 2
    _ = (byteOf payload.length).toNat := rfl
    _ = payload.length := by rw [BitVec.toNat_ofNat, Nat.mod_eq_of_lt hlt]

theorem take_drop_three_frame (tag code : Byte) (payload : List Byte) :
    ((closeFrame (frameBody tag code payload)).drop 3).take payload.length = payload := by
  simp [closeFrame, frameBody]

/-- The layout that requests and responses share. -/
theorem frame_layout (tag code : Byte) {payload : List Byte} (h : payload.length ≤ Config.maxPayload) :
    let f := closeFrame (frameBody tag code payload)
    f.length = payload.length + 4 ∧ byteAt f 0 = tag ∧ byteAt f 1 = code ∧ natAt f 2 = payload.length ∧
      (f.drop 3).take payload.length = payload ∧
      byteAt f (payload.length + 3) = crc (f.take (payload.length + 3)) ∧ crc f = 0 := by
  refine ⟨?length, byteAt_zero_frame .., byteAt_one_frame .., natAt_two_frame tag code h,
    take_drop_three_frame .., byteAt_closeFrame_eq_crc_take (length_frameBody ..), crc_closeFrame _⟩
  case length => rw [length_closeFrame, length_frameBody]

/-- Settles O7: both kinds of frame are the same layout, with the status code or the command code at offset 1. -/
theorem frameLayout : Obligations.FrameLayout := by
  unfold Obligations.FrameLayout
  refine ⟨fun tag reply h => ?response, fun r h => ?request⟩
  case response => rw [responseFrame_eq]; exact frame_layout tag reply.status.code h
  case request => rw [requestFrame_eq]; exact frame_layout r.tag r.code h

/-! ### Status codes (R209) -/

/-- Settles O6: each conjunct is one arm of the code table. -/
theorem statusCodes : Obligations.StatusCodes := by
  unfold Obligations.StatusCodes
  exact ⟨rfl, rfl, rfl, rfl, rfl, rfl, rfl, rfl, rfl, rfl⟩

end Sys2Proof.Machine
end

section
/-! PROOFS. What a row can do at all: every row but those of the supplies, of RSTN and of a crystal gap is a run of the few moves
below. Each invariant of Sys2Proof/Safety.lean is then a fact about these moves. -/

namespace Sys2Proof.Machine

/-! ### What the moves speak of -/

/-- The claim of the entry is told to stand (R15). -/
def Entry.Stands (e : Entry) : Prop :=
  e.state = .active ∧ e.held = true

/-- `e'` has in place of `e` the same claim standing, or none in place of none. -/
def Entry.ClaimsAlike (e e' : Entry) : Prop :=
  (e'.Stands ↔ e.Stands) ∧
    (e.Stands →
      e'.defn.channel = e.defn.channel ∧ e'.defn.priority = e.defn.priority ∧ e'.defn.action = e.defn.action)

/-- The engine has no work and waits for none (R66). -/
def Engine.Quiet (e : Engine) : Prop :=
  e.work = .idle ∧ e.resyncRequested = false ∧ e.boundaryNoted = false

/-- The clock is VALID, or the engine is not quiet all the same, as QuietSound says of no state. -/
def State.Awake (s : State) : Prop :=
  s.clock.valid = true ∨ ¬s.engine.Quiet

/-- From `s` to `t` IRQN has followed the groups: in PULSE mode a pulse that is being driven goes on, and a group that has come
to assert has given one (R175). -/
def State.IrqFollows (s t : State) : Prop :=
  t.attention.irqMode = s.attention.irqMode ∧
    (s.attention.irqMode = .pulse →
      (s.attention.pulse = true → t.attention.pulse = true) ∧
        ∀ g : Group, s.groupAsserts g = false → t.groupAsserts g = true → t.attention.pulse = true)

/-- One move of the part. `irq` says that IRQN follows the notices and latches, as it does in every row but
CONFIGURE_ATTENTION and the end of a pulse. -/
inductive Move (irq : Bool) (s : State) : State → Prop where
  /-- Pins, the timebase and the clock; a VALID clock stays VALID, with a RUNNING timebase behind it. -/
  | outside (pins : Pins) (tb : Timebase) (ck : Clock) (hv : s.clock.valid = true → ck.valid = true)
      (hc : s.ClockSound → ck.valid = true → tb.state = .running) :
      Move irq s { s with pins := pins, timebase := tb, clock := ck }
  | settings (policy : BitVec 4) (bindings : Vector Binding 8) (hr : s.running = true) :
      Move irq s { s with policy := policy, bindings := bindings }
  | dates (d : DateSet) (hd : s.DatesSound → (s.withDates d).DatesSound) : Move irq s (s.withDates d)
  | ports (main panel : PortState) (bus : PanelBus) (pulse : Bool) (hr : s.running = true)
      (hi : s.IrqFollows
        { s with mainPort := main, panelPort := panel, panelBus := bus, attention := { s.attention with pulse := pulse } }) :
      Move irq s
        { s with mainPort := main, panelPort := panel, panelBus := bus, attention := { s.attention with pulse := pulse } }
  | notices (a : Attention) (inputs : Vector InputRun 8) (hr : s.running = true)
      (hn : ∀ i : SlotNo, a.entryNotices[i] ≠ 0 → s.attention.entryNotices[i] ≠ 0 ∨ (s.slot i).entry.isSome = true)
      (hi : irq = true → s.IrqFollows { s with attention := a, inputs := inputs }) :
      Move irq s { s with attention := a, inputs := inputs }
  /-- The engine; while the clock is INVALID a quiet one stays quiet, and a wipe passes EMPTY slots alone. -/
  | engine (e : Engine) (hr : s.running = true) (hq : s.clock.valid = false → s.engine.Quiet → e.Quiet)
      (hw : ∀ w', e.wipe = some w' → ∀ i : SlotNo, i.val < w'.cursor →
        (∃ w, s.engine.wipe = some w ∧ i.val < w.cursor) ∨ (s.slot i).entry = none) :
      Move irq s (s.withEngine e)
  | place (c : Chan) (k : Claim) (hr : s.running = true) (hv : s.clock.valid = true)
      (hk : isEntrySource k.source = false) (hf : k.lifetimeFits = true) : Move irq s (s.place c k)
  | remove (c : Chan) (src : Source) (hr : s.running = true)
      (hs : isEntrySource src = false ∨ ∃ k, claimOf (s.list c) src = some k ∧ k.lifetime ≠ .entry) :
      Move irq s (s.remove c src)
  | report (c : Chan) (hr : s.running = true) : Move irq s (s.reportTop c)
  | record (changed : Vector Bool 24) (hr : s.running = true) :
      Move irq s (s.withArbiter { s.arbiter with changed := changed })
  | seconds (hr : s.running = true) : Move irq s s.countSeconds
  | channel (c : Chan) (cfg : ChannelConfig) (run : ChannelRun) (hr : s.running = true)
      (hc : ChannelSound (s.config c) (s.channel c) → ChannelSound cfg run) :
      Move irq s ((s.withConfig c cfg).withChannel c run)
  /-- An entry takes new fields, none of which its claim depends on. -/
  | rewrite (i : SlotNo) (e e' : Entry) (gen : Byte) (hr : s.running = true) (he : (s.slot i).entry = some e)
      (hs : e.sound → e'.sound) (ha : e'.state = .active → s.Awake ∨ e.state = .active)
      (hc : e.ClaimsAlike e') : Move irq s (s.withSlot i { gen := gen, entry := some e' })
  | add (i : SlotNo) (e : Entry) (gen : Byte) (hr : s.running = true) (he : (s.slot i).entry = none)
      (hw : s.engine.wipe = none) (hs : e.sound) (ha : e.state ≠ .active) :
      Move irq s (s.withSlot i { gen := gen, entry := some e })
  | free (i : SlotNo) (hr : s.running = true) (he : ∀ e, (s.slot i).entry = some e → ¬e.Stands) : Move irq s (s.freeSlot i)
  | delete (i : SlotNo) (hr : s.running = true) : Move irq s (s.deleteSlot i)
  /-- An entry leaves ACTIVE, its claim taken out. -/
  | withdraw (i : SlotNo) (e e' : Entry) (gen : Byte) (hr : s.running = true) (he : (s.slot i).entry = some e)
      (hs : e.sound → e'.sound) (ha : e'.state ≠ .active) :
      Move irq s ((s.withdrawEntryClaim i).withSlot i { gen := gen, entry := some e' })
  /-- An entry becomes ACTIVE, or stands ACTIVE without a claim, and hands its claim to the arbiter. -/
  | enter (i : SlotNo) (e e' : Entry) (gen : Byte) (hr : s.running = true) (hv : s.Awake)
      (he : (s.slot i).entry = some e) (hn : ¬e.Stands) (ha : e'.state = .active) (hs : e.sound → e'.sound) :
      Move irq s ((s.withSlot i { gen := gen, entry := some e' }).placeEntryClaim i)
  /-- The in-place fields of an entry change, and its claim that stands with them. -/
  | update (i : SlotNo) (e : Entry) (d : Definition) (gen : Byte) (hr : s.running = true)
      (he : (s.slot i).entry = some e) (hst : e.Stands) (hs : e.sound → ({ e with defn := d } : Entry).sound)
      (hc : d.channel = e.defn.channel) :
      Move irq s
        ((s.withSlot i { gen := gen, entry := some { e with defn := d } }).setList d.channel
          (updateInList (s.list d.channel) (.entry i) d.priority d.action))

/-- A run of moves. -/
abbrev Moves (irq : Bool) : State → State → Prop :=
  Relation.ReflTransGen (Move irq)

/-- What every move keeps, a run of moves keeps. -/
theorem Moves.keeps {irq : Bool} {I : State → Prop} (hI : ∀ {s t}, Move irq s t → I s → I t) {s t : State}
    (h : Moves irq s t) (hs : I s) : I t := by
  induction h with
  | refl => exact hs
  | tail _ hm ih => exact hI hm ih

theorem Moves.refl (irq : Bool) (s : State) : Moves irq s s := Relation.ReflTransGen.refl

/-- A state that is written as `s` with fields of `s` is `s`. -/
theorem Moves.of_eq {irq : Bool} {s t : State} (h : s = t) : Moves irq s t := h ▸ Moves.refl irq s

/-! ### IRQN follows the groups (R174, R175) -/

theorem Group.mem_all (g : Group) : g ∈ Group.all := by
  cases g <;> decide

theorem State.IrqFollows.trans {s t u : State} (h : s.IrqFollows t) (k : t.IrqFollows u) : s.IrqFollows u := by
  obtain ⟨h1, h2⟩ := h
  obtain ⟨k1, k2⟩ := k
  refine ⟨k1.trans h1, fun hm => ?_⟩
  obtain ⟨a1, a2⟩ := h2 hm
  obtain ⟨b1, b2⟩ := k2 (h1.trans hm)
  refine ⟨fun hp => b1 (a1 hp), fun g hs hu => ?_⟩
  cases ht : t.groupAsserts g with
  | true => exact b1 (a2 g hs ht)
  | false => exact b2 g ht hu

/-- A step that changes neither the attention unit nor what makes a group pending. -/
theorem State.IrqFollows.of_same {s t : State} (ha : t.attention = s.attention) (hg : ∀ g, t.groupPending g = s.groupPending g) :
    s.IrqFollows t := by
  refine ⟨by rw [ha], fun _ => ⟨fun h => by rw [ha]; exact h, fun g hs ht => ?_⟩⟩
  unfold State.groupAsserts at hs ht
  rw [ha, hg, hs] at ht
  cases ht

theorem State.groupPending_eq {s t : State} (ha : t.attention = s.attention) (hi : t.inputs = s.inputs)
    (hp : t.mainPort.slot.isReady = s.mainPort.slot.isReady) (g : Group) : t.groupPending g = s.groupPending g := by
  cases g <;> simp [State.groupPending, ha, hi, hp]

theorem State.irqFollow_groupAsserts (s t : State) (g : Group) : (s.irqFollow t).groupAsserts g = t.groupAsserts g := by
  cases g <;> rfl

/-- An arrival that left mode and pulse alone, once IRQN has followed it. -/
theorem State.IrqFollows.follow {s t : State} (hm : t.attention.irqMode = s.attention.irqMode)
    (hp : t.attention.pulse = s.attention.pulse) : s.IrqFollows (s.irqFollow t) := by
  refine ⟨hm, fun hmode => ?_⟩
  have hpulse : (s.irqFollow t).attention.pulse =
      (t.attention.pulse || Group.all.any fun g => t.groupAsserts g && !s.groupAsserts g) := by
    simp [State.irqFollow, State.withAttention, hm, hmode]
  rw [hpulse, hp]
  refine ⟨fun h => by simp [h], fun g hs ht => ?_⟩
  rw [State.irqFollow_groupAsserts] at ht
  have : (Group.all.any fun g => t.groupAsserts g && !s.groupAsserts g) = true :=
    List.any_eq_true.2 ⟨g, g.mem_all, by simp [hs, ht]⟩
  simp [this]

end Sys2Proof.Machine
end

section
/-! PROOFS. The shared steps of the blocks as runs of moves, in the order of Sys2Proof/Machine/Ops.lean. -/

namespace Sys2Proof.Machine

variable {b : Bool} {s : State}

theorem EvalStep.awake {s t : State} (h : EvalStep s t) (hv : s.Awake) : t.Awake := by
  unfold State.Awake at hv ⊢
  rw [h.clock, h.engine]
  exact hv

/-! ### Notices and ports -/

/-- A notice or latch that IRQN has followed. -/
theorem notices_moves (hr : s.running = true) (a : Attention) (inputs : Vector InputRun 8)
    (hn : ∀ i : SlotNo, a.entryNotices[i] ≠ 0 → s.attention.entryNotices[i] ≠ 0 ∨ (s.slot i).entry.isSome = true)
    (hm : a.irqMode = s.attention.irqMode) (hp : a.pulse = s.attention.pulse) :
    Moves b s (s.irqFollow { s with attention := a, inputs := inputs }) :=
  .single (Move.notices _ inputs hr hn fun _ => State.IrqFollows.follow hm hp)

theorem raiseEntry_moves (hr : s.running = true) (i : SlotNo) (cause : EntryCause) :
    Moves b s (s.raiseEntry i cause) := by
  unfold State.raiseEntry
  split
  · exact Moves.refl b s
  · next e he =>
    split
    · exact Moves.refl b s
    · refine notices_moves hr _ s.inputs (fun j hj => ?_) rfl rfl
      by_cases hij : j = i
      · exact .inr (by rw [hij, he]; rfl)
      · have hne : i.val ≠ j.val := Fin.val_ne_of_ne (Ne.symm hij)
        exact .inl (by simpa [Vector.getElem_set_ne, hne] using hj)

theorem dropEntryNotice_moves (hr : s.running = true) (i : SlotNo) : Moves b s (s.dropEntryNotice i) := by
  refine notices_moves hr _ s.inputs (fun j hj => .inl fun h0 => hj ?_) rfl rfl
  by_cases hij : i.val = j.val
  · simp [hij]
  · simpa [Vector.getElem_set_ne, hij] using h0

theorem raiseChannel_moves (hr : s.running = true) (c : Chan) (cause : ChannelCause) :
    Moves b s (s.raiseChannel c cause) :=
  notices_moves hr _ s.inputs (fun _ h => .inl h) rfl rfl

theorem tickAt_moves (hr : s.running = true) (minute : Bool) : Moves b s (s.tickAt minute) := by
  unfold State.tickAt
  split
  · exact notices_moves hr _ s.inputs (fun _ h => .inl h) rfl rfl
  · exact Moves.refl b s

/-- A port takes new contents that are READY just when the old ones were. -/
theorem withPort_moves (hr : s.running = true) (p : Port) (x : PortState)
    (hx : x.slot.isReady = (s.port p).slot.isReady) : Moves b s (s.withPort p x) := by
  have hi : s.IrqFollows (s.withPort p x) := by
    refine .of_same (by simp) fun g => State.groupPending_eq (by simp) (by simp) ?_ g
    cases p
    · exact hx
    · rfl
  cases p
  · exact .single (Move.ports x s.panelPort s.panelBus s.attention.pulse hr hi)
  · exact .single (Move.ports s.mainPort x s.panelBus s.attention.pulse hr hi)

theorem withPanelBus_moves (hr : s.running = true) (x : PanelBus) : Moves b s (s.withPanelBus x) :=
  .single (Move.ports s.mainPort s.panelPort x s.attention.pulse hr (.of_same rfl fun _ => rfl))

theorem setPortSlot_moves (hr : s.running = true) (p : Port) (x : PortSlot) : Moves b s (s.setPortSlot p x) := by
  have hi : s.IrqFollows (s.setPortSlot p x) := .follow (by simp) (by simp)
  cases p
  · exact .single (Move.ports { s.mainPort with slot := x } s.panelPort s.panelBus (s.setPortSlot .main x).attention.pulse hr hi)
  · exact .single (Move.ports s.mainPort { s.panelPort with slot := x } s.panelBus (s.setPortSlot .panel x).attention.pulse hr hi)

/-! ### Entries -/

/-- A step on the fields of an entry that are no part of its claim. -/
theorem markEntry_moves (hr : s.running = true) {i : SlotNo} {e e' : Entry} (he : (s.slot i).entry = some e)
    (hs : e.sound → e'.sound) (ha : e'.state = .active → s.Awake ∨ e.state = .active)
    (hc : e.ClaimsAlike e') : Moves b s (s.markEntry i e') :=
  .single (Move.rewrite i e e' _ hr he hs ha hc)

theorem stepEntry_moves (hr : s.running = true) {i : SlotNo} {e e' : Entry} (he : (s.slot i).entry = some e)
    (hs : e.sound → e'.sound) (ha : e'.state = .active → s.Awake ∨ e.state = .active)
    (hc : e.ClaimsAlike e') : Moves b s (s.stepEntry i e') :=
  .single (Move.rewrite i e e' _ hr he hs ha hc)

/-- Two entries neither of whose claims stands. -/
theorem Entry.ClaimsAlike.of_not {e e' : Entry} (h : ¬e.Stands) (h' : ¬e'.Stands) : e.ClaimsAlike e' :=
  ⟨⟨fun x => absurd x h', fun x => absurd x h⟩, fun x => absurd x h⟩

/-- Two entries of one definition that stand alike. -/
theorem Entry.ClaimsAlike.of_same {e e' : Entry} (hd : e'.defn = e.defn) (hs : e'.state = e.state)
    (hh : e'.held = e.held) : e.ClaimsAlike e' := by
  refine ⟨?_, fun _ => ?_⟩
  · unfold Entry.Stands
    rw [hs, hh]
  · rw [hd]
    exact ⟨rfl, rfl, rfl⟩

theorem Entry.not_stands_of_state {e : Entry} (h : e.state ≠ .active) : ¬e.Stands := fun hs => h hs.1

theorem Entry.not_stands_of_held {e : Entry} (h : e.held = false) : ¬e.Stands := fun hs => by
  rw [hs.2] at h
  cases h

/-- An entry with the same definition and budget whose occurrence fields are clear, or that is ACTIVE with its stamp. -/
theorem Entry.sound_of_clear {e e' : Entry} (hd : e'.defn = e.defn) (hb : e'.remBudget = e.remBudget)
    (hc : e'.held = false ∧ e'.final = false ∧ e'.endDue = none ∧ e'.remSeconds = 0) (ha : e'.state ≠ .active)
    (h : e.sound) : e'.sound := by
  obtain ⟨h1, h2, h3, -, -, -⟩ := h
  exact ⟨hd ▸ h1, by rw [hb, hd, h2], by rw [hb, hd]; exact h3, by omega, fun _ => hc, fun hx => absurd hx ha⟩

theorem Entry.leaveActive_sound {e : Entry} {x : EntryState} (hx : x ≠ .active) (h : e.sound) : (e.leaveActive x).sound :=
  Entry.sound_of_clear (e := e) rfl rfl ⟨rfl, rfl, rfl, rfl⟩ hx h

/-- A step from one state outside ACTIVE to another keeps the occurrence fields clear. -/
theorem Entry.sound_of_inactive {e e' : Entry} (hd : e'.defn = e.defn) (hb : e'.remBudget = e.remBudget)
    (hh : e'.held = e.held) (hf : e'.final = e.final) (hu : e'.endDue = e.endDue) (hs : e'.remSeconds = e.remSeconds)
    (he : e.state ≠ .active) (ha : e'.state ≠ .active) (h : e.sound) : e'.sound := by
  have hc := h.2.2.2.2.1 he
  rw [← hh, ← hf, ← hu, ← hs] at hc
  exact Entry.sound_of_clear hd hb hc ha h

/-- Fields outside the ranges of soundness may take any value. -/
theorem Entry.sound_of_same {e e' : Entry} (hd : e'.defn = e.defn) (hb : e'.remBudget = e.remBudget)
    (hh : e'.held = e.held) (hf : e'.final = e.final) (hu : e'.endDue = e.endDue) (hs : e'.remSeconds = e.remSeconds)
    (hm : e'.stamp = e.stamp) (hx : e'.state = e.state) (h : e.sound) : e'.sound := by
  unfold Entry.sound at h ⊢
  rw [hd, hb, hh, hf, hu, hs, hm, hx]
  exact h

/-- Soundness asks nothing of held and end due in ACTIVE. -/
theorem Entry.sound_of_active {e e' : Entry} (hd : e'.defn = e.defn) (hb : e'.remBudget = e.remBudget)
    (hs : e'.remSeconds ≤ 3600) (hm : e'.stamp.isSome = true) (ha : e'.state = .active) (h : e.sound) : e'.sound := by
  obtain ⟨h1, h2, h3, -, -, -⟩ := h
  exact ⟨hd ▸ h1, by rw [hb, hd, h2], by rw [hb, hd]; exact h3, hs, fun hx => absurd ha hx, fun _ => hm⟩

/-! ### Leaving ACTIVE and freeing (R45, R46) -/

theorem freeSlot_moves (hr : s.running = true) {i : SlotNo} (he : ∀ e, (s.slot i).entry = some e → ¬e.Stands) :
    Moves b s (s.freeSlot i) :=
  .single (Move.free i hr he)

theorem autofreeSpent_moves (hr : s.running = true) {i : SlotNo} (he : ∀ e, (s.slot i).entry = some e → ¬e.Stands) :
    Moves b s (s.autofreeSpent i) := by
  unfold State.autofreeSpent
  split
  · exact Moves.refl b s
  · split
    · exact freeSlot_moves hr he
    · exact Moves.refl b s

@[simp] theorem State.raiseEntry_slot (s : State) (i j : SlotNo) (cause : EntryCause) :
    (s.raiseEntry i cause).slot j = s.slot j := by
  unfold State.raiseEntry
  split
  · rfl
  · split <;> rfl

theorem enteredSpent_moves (hr : s.running = true) {i : SlotNo} (he : ∀ e, (s.slot i).entry = some e → ¬e.Stands) :
    Moves b s (s.enteredSpent i) :=
  (raiseEntry_moves hr i .spent).trans
    (autofreeSpent_moves ((raiseEntry_eval s i .spent).running.trans hr) (by simpa using he))

@[simp] theorem State.stepEntry_slot_self (s : State) (i : SlotNo) (e : Entry) :
    (s.stepEntry i e).slot i = { gen := (s.slot i).gen + 1, entry := some e } :=
  State.slot_withSlot_self ..

theorem spendArmed_moves (hr : s.running = true) {i : SlotNo} {e : Entry} (he : (s.slot i).entry = some e)
    (ha : e.state = .armed) : Moves b s (s.spendArmed i) := by
  have h0 : ¬e.Stands := Entry.not_stands_of_state (by rw [ha]; decide)
  have h1 : ¬({ e with state := .spent } : Entry).Stands := Entry.not_stands_of_state (by simp)
  unfold State.spendArmed
  rw [he]
  refine .trans (stepEntry_moves hr he (e' := { e with state := .spent })
    (Entry.sound_of_inactive rfl rfl rfl rfl rfl rfl (by rw [ha]; decide) (by simp)) (fun h => by cases h) (.of_not h0 h1))
    (enteredSpent_moves (s := s.stepEntry i { e with state := .spent }) hr fun e' he' => ?_)
  simp only [State.stepEntry_slot_self, Option.some.injEq] at he'
  exact he' ▸ h1

/-- Raising a cause and rewriting the entry come to the same in either order, where notify stays. -/
theorem raiseEntry_withSlot {i : SlotNo} {e e' : Entry} (he : (s.slot i).entry = some e) (cause : EntryCause) (gen : Byte)
    (hn : e'.defn.notify = e.defn.notify) :
    (s.raiseEntry i cause).withSlot i { gen := gen, entry := some e' } =
      (s.withSlot i { gen := gen, entry := some e' }).raiseEntry i cause := by
  have h' : ((s.withSlot i { gen := gen, entry := some e' }).slot i).entry = some e' := by simp
  unfold State.raiseEntry
  rw [he, h']
  dsimp only
  rw [hn]
  split <;> rfl

theorem State.withdrawEntryClaim_slot (s : State) (i j : SlotNo) : (s.withdrawEntryClaim i).slot j = s.slot j := by
  cases he : (s.slot i).entry with
  | none => simp [State.withdrawEntryClaim, he]
  | some e =>
    rw [(State.withdrawEntryClaim_withdraws he).2.2]
    rfl

/-- An entry leaves ACTIVE with its claim and with a cause raised between. -/
theorem withdraw_raise_moves (hr : s.running = true) {i : SlotNo} {e e' : Entry} (he : (s.slot i).entry = some e)
    (cause : EntryCause) (gen : Byte) (hs : e.sound → e'.sound) (ha : e'.state ≠ .active)
    (hn : e'.defn.notify = e.defn.notify) :
    Moves b s (((s.withdrawEntryClaim i).raiseEntry i cause).withSlot i { gen := gen, entry := some e' }) := by
  have hw : ((s.withdrawEntryClaim i).slot i).entry = some e := by rw [State.withdrawEntryClaim_slot, he]
  rw [raiseEntry_withSlot hw cause gen hn]
  exact (Relation.ReflTransGen.single (Move.withdraw i e e' gen hr he hs ha)).trans
    (raiseEntry_moves (s := (s.withdrawEntryClaim i).withSlot i { gen := gen, entry := some e' })
      ((withdrawEntryClaim_eval s i).running.trans hr) i cause)

theorem endOccurrence_moves (hr : s.running = true) (i : SlotNo) : Moves b s (s.endOccurrence i) := by
  unfold State.endOccurrence
  split
  · exact Moves.refl b s
  · next e he =>
    have hmove : ∀ x : EntryState, x ≠ .active → Moves b s
        (((s.withdrawEntryClaim i).raiseEntry i .ended).stepEntry i (e.leaveActive x)) := fun x hx =>
      withdraw_raise_moves hr he .ended _ (Entry.leaveActive_sound hx) hx rfl
    dsimp only
    split
    · refine (hmove .spent (by decide)).trans (enteredSpent_moves ?_ fun e' he' => ?_)
      · exact (((withdrawEntryClaim_eval s i).trans (raiseEntry_eval _ i .ended)).running).trans hr
      · simp only [State.stepEntry_slot_self, Option.some.injEq] at he'
        exact he' ▸ Entry.not_stands_of_state (by simp [Entry.leaveActive])
    · exact hmove .armed (by decide)

/-! ### Entering ACTIVE (R44, R52) -/

theorem State.withSlot_slot (s : State) (i : SlotNo) : s.withSlot i (s.slot i) = s := by
  simp [State.withSlot, State.slot]

/-- The claim of an entry that is ACTIVE and does not stand is handed to the arbiter. -/
theorem placeEntryClaim_moves (hr : s.running = true) (hv : s.Awake) {i : SlotNo} {e : Entry}
    (he : (s.slot i).entry = some e) (ha : e.state = .active) (hh : e.held = false) :
    Moves b s (s.placeEntryClaim i) := by
  have hx : ({ gen := (s.slot i).gen, entry := some e } : Slot) = s.slot i := by
    rw [← he]
  have := Move.enter (irq := b) i e e (s.slot i).gen hr hv he (Entry.not_stands_of_held hh) ha id
  rw [hx, State.withSlot_slot] at this
  exact .single this

theorem Entry.activated_sound {e : Entry} (d : Date) (hb : e.remBudget ≠ some 0) (h : e.sound) : (e.activated d).sound := by
  obtain ⟨h1, h2, h3, -, -, -⟩ := h
  have hk : (e.activated d).remSeconds ≤ 3600 := by
    have := h1.2.2.2.1
    cases hkind : e.defn.kind with
    | span stop => simp [Entry.activated, hkind]
    | event duration =>
      rw [hkind] at this
      simpa [Entry.activated, hkind] using this.2
  refine ⟨h1, by simpa [Entry.activated] using h2, ?_, hk, fun hx => absurd rfl hx, fun _ => rfl⟩
  cases hr : e.remBudget with
  | none => simp [Entry.activated, hr]
  | some n =>
    have hn : n ≠ 0 := fun h0 => hb (by rw [hr, h0])
    have hle : (n - 1).toNat ≤ n.toNat := by
      have : n.toNat ≠ 0 := fun h0 => hn (BitVec.eq_of_toNat_eq h0)
      bv_omega
    rw [hr] at h3
    simpa [Entry.activated, hr] using hle.trans h3

theorem activate_moves (hr : s.running = true) (hv : s.Awake) {i : SlotNo} {e : Entry}
    (he : (s.slot i).entry = some e) (ha : e.state = .armed) (hb : e.remBudget ≠ some 0) (d : Date) :
    Moves b s (s.activate i d) := by
  have h1 : Moves b s (s.stepEntry i (e.activated d)) :=
    stepEntry_moves hr he (Entry.activated_sound d hb) (fun _ => .inl hv)
      (.of_not (Entry.not_stands_of_state (by rw [ha]; decide)) (Entry.not_stands_of_held rfl))
  have h2 : Moves b (s.stepEntry i (e.activated d)) ((s.stepEntry i (e.activated d)).raiseEntry i .started) :=
    raiseEntry_moves (s := s.stepEntry i (e.activated d)) hr i .started
  have hE := (withSlot_eval s i _).trans (raiseEntry_eval (s.stepEntry i (e.activated d)) i .started)
  unfold State.activate
  rw [he]
  refine (h1.trans h2).trans (placeEntryClaim_moves (e := e.activated d) (hE.running.trans hr) (hE.awake hv) ?_ rfl rfl)
  simp

theorem rejoinEntry_moves (hr : s.running = true) (hv : s.Awake) {i : SlotNo} {e : Entry}
    (he : (s.slot i).entry = some e) (ha : e.state = .armed) (hm : e.stamp.isSome = true) (close : Minute) :
    Moves b s (s.rejoinEntry i close) := by
  unfold State.rejoinEntry
  rw [he]
  refine .single (Move.enter i e { e with state := .active, endDue := some close } _ hr hv he
    (Entry.not_stands_of_state (by rw [ha]; decide)) rfl fun h => ?_)
  exact Entry.sound_of_active (e := e) rfl rfl h.2.2.2.1 hm rfl h

/-! ### Admission (R50, R51) -/

theorem closeAdmission_moves (hr : s.running = true) (i : SlotNo) : Moves b s (s.closeAdmission i) := by
  unfold State.closeAdmission
  split
  · exact Moves.refl b s
  · next e he =>
    exact markEntry_moves hr he (Entry.sound_of_same rfl rfl rfl rfl rfl rfl rfl rfl) (fun h => .inr h)
      (.of_same rfl rfl rfl)

/-- A window that may be rejoined is the one the stamp names. -/
theorem Entry.stamp_of_rejoinWindow {e : Entry} {m close : Minute} (h : e.rejoinWindow m = some close) :
    e.stamp.isSome = true := by
  unfold Entry.rejoinWindow at h
  split at h
  · next hs => rw [hs]; rfl
  · cases h
  · cases h

theorem admitSteps_moves (hr : s.running = true) (hv : s.Awake) {i : SlotNo} {e : Entry}
    (he : (s.slot i).entry = some e) (ha : e.state = .armed) (m : Minute) : Moves b s (s.admitSteps i e m) := by
  unfold State.admitSteps
  split
  · next close hw => exact rejoinEntry_moves hr hv he ha (Entry.stamp_of_rejoinWindow hw) close
  · split
    · exact spendArmed_moves hr he ha
    · next hb =>
      split
      · exact activate_moves hr hv he ha hb _
      · exact Moves.refl b s

theorem admitOne_moves (hr : s.running = true) (hv : s.Awake) {i : SlotNo}
    (ha : ∀ e, (s.slot i).entry = some e → e.state = .armed) (m : Minute) : Moves b s (s.admitOne i m) := by
  unfold State.admitOne
  split
  · exact Moves.refl b s
  · next e he =>
    exact (admitSteps_moves hr hv he (ha e he) m).trans
      (closeAdmission_moves ((admitSteps_eval s i e m).running.trans hr) i)

theorem admitAfterCommand_moves (hr : s.running = true) {i : SlotNo}
    (ha : ∀ e, (s.slot i).entry = some e → e.state = .armed) : Moves b s (s.admitAfterCommand i) := by
  unfold State.admitAfterCommand
  split
  · exact Moves.refl b s
  · next hv =>
    have hv : s.Awake := .inl (by simpa using hv)
    split
    · exact admitOne_moves hr hv ha _
    · split
      · exact admitOne_moves hr hv ha _
      · exact Moves.refl b s
    · exact Moves.refl b s

/-! ### The sweep's visit (R41 to R44) -/

theorem startCheck_moves (hr : s.running = true) (hv : s.Awake) {i : SlotNo} {e : Entry}
    (he : (s.slot i).entry = some e) (ha : e.state = .armed) (m : Minute) : Moves b s (s.startCheck i e m) := by
  unfold State.startCheck
  split
  · exact spendArmed_moves hr he ha
  · next hb =>
    split
    · exact activate_moves hr hv he ha hb _
    · exact Moves.refl b s

theorem endCheck_moves (hr : s.running = true) (i : SlotNo) (e : Entry) (m : Minute) : Moves b s (s.endCheck i e m) := by
  unfold State.endCheck
  split
  · split
    · exact endOccurrence_moves hr i
    · exact Moves.refl b s
  · exact Moves.refl b s

theorem setFinal_moves (hr : s.running = true) {i : SlotNo} {e : Entry} (he : (s.slot i).entry = some e)
    (ha : e.state = .active) : Moves b s (s.setFinal i) := by
  unfold State.setFinal
  rw [he]
  refine markEntry_moves hr he (fun h => ?_) (fun _ => .inr ha) (.of_same rfl rfl rfl)
  exact Entry.sound_of_active (e := e) rfl rfl h.2.2.2.1 (h.2.2.2.2.2 ha) ha h

theorem sweepSlot_moves (hr : s.running = true) (hv : s.Awake) (i : SlotNo) (m : Minute) :
    Moves b s (s.sweepSlot i m) := by
  unfold State.sweepSlot
  split
  · exact Moves.refl b s
  · next e he =>
    dsimp only
    split
    · exact Moves.refl b s
    · exact Moves.refl b s
    · next ha =>
      split
      · exact spendArmed_moves hr he ha
      · split
        · exact admitOne_moves hr hv (fun e' he' => by rw [he] at he'; cases he'; exact ha) m
        · exact startCheck_moves hr hv he ha m
    · next ha =>
      split
      · exact (setFinal_moves hr he ha).trans (endCheck_moves ((setFinal_eval s i).running.trans hr) i e m)
      · exact endCheck_moves hr i e m

/-! ### The resync's visit (R55 to R60) -/

theorem resyncArmedSteps_moves (hr : s.running = true) (hv : s.Awake) {i : SlotNo} {e : Entry}
    (he : (s.slot i).entry = some e) (ha : e.state = .armed) (t : Moment) (k : Skipped) :
    Moves b s (s.resyncArmedSteps i e t k) := by
  unfold State.resyncArmedSteps
  split
  · exact spendArmed_moves hr he ha
  · split
    · next close hw => exact rejoinEntry_moves hr hv he ha (Entry.stamp_of_rejoinWindow hw) close
    · split
      · exact spendArmed_moves hr he ha
      · next hb =>
        have hact : ∀ d, Moves b s (s.activate i d) := activate_moves hr hv he ha hb
        have hraise := raiseEntry_moves (b := b) hr i .missed
        split
        · unfold State.resyncArmedSpan
          split
          · exact hact _
          · split
            · exact hraise
            · exact Moves.refl b s
        · unfold State.resyncArmedEvent
          split
          · split
            · exact hact _
            · split
              · split
                · exact hact _
                · exact hraise
              · exact Moves.refl b s
          · exact Moves.refl b s

theorem resyncArmed_moves (hr : s.running = true) (hv : s.Awake) {i : SlotNo}
    (ha : ∀ e, (s.slot i).entry = some e → e.state = .armed) (t : Moment) (k : Skipped) :
    Moves b s (s.resyncArmed i t k) := by
  unfold State.resyncArmed
  split
  · exact Moves.refl b s
  · next e he =>
    exact (resyncArmedSteps_moves hr hv he (ha e he) t k).trans
      (closeAdmission_moves ((resyncArmedSteps_eval s i e t k).running.trans hr) i)

theorem endAndContinue_moves (hr : s.running = true) (hv : s.Awake) (i : SlotNo) (t : Moment) (k : Skipped) :
    Moves b s (s.endAndContinue i t k) := by
  have h := endOccurrence_moves (b := b) hr i
  have hE := endOccurrence_eval s i
  unfold State.endAndContinue
  dsimp only
  split
  · exact h
  · next e he =>
    split
    · next ha =>
      refine h.trans (resyncArmed_moves (hE.running.trans hr) (hE.awake hv) (fun e' he' => ?_) t k)
      rw [he] at he'
      cases he'
      exact ha
    · exact h
    · exact h
    · exact h

theorem resyncActiveSpan_moves (hr : s.running = true) (hv : s.Awake) {i : SlotNo} {e : Entry}
    (he : (s.slot i).entry = some e) (ha : e.state = .active) (stop : DayMinute) (t : Moment) (k : Skipped) :
    Moves b s (s.resyncActiveSpan i e stop t k) := by
  have hmark : Moves b s (s.markEntry i { e with interrupted := false }) :=
    markEntry_moves hr he (Entry.sound_of_same rfl rfl rfl rfl rfl rfl rfl rfl) (fun _ => .inr ha) (.of_same rfl rfl rfl)
  unfold State.resyncActiveSpan
  split
  · dsimp only
    split
    · exact hmark
    · next hh =>
      refine hmark.trans (placeEntryClaim_moves (s := s.markEntry i { e with interrupted := false })
        (e := { e with interrupted := false }) hr hv ?_ ha (by simpa using hh))
      simp [State.markEntry]
  · exact endAndContinue_moves hr hv i t k

theorem resyncActive_moves (hr : s.running = true) (hv : s.Awake) {i : SlotNo}
    (ha : ∀ e, (s.slot i).entry = some e → e.state = .active) (t : Moment) (k : Skipped) :
    Moves b s (s.resyncActive i t k) := by
  unfold State.resyncActive
  split
  · exact Moves.refl b s
  · next e he =>
    split
    · exact resyncActiveSpan_moves hr hv he (ha e he) _ t k
    · unfold State.resyncActiveEvent
      split
      · exact endAndContinue_moves hr hv i t k
      · exact Moves.refl b s

theorem resyncSlot_moves (hr : s.running = true) (hv : s.Awake) (i : SlotNo) (t : Moment) (k : Skipped) :
    Moves b s (s.resyncSlot i t k) := by
  unfold State.resyncSlot
  split
  · exact Moves.refl b s
  · next e he =>
    have hone : ∀ x, e.state = x → ∀ e', (s.slot i).entry = some e' → e'.state = x := fun x hx e' he' => by
      rw [he] at he'
      cases he'
      exact hx
    split
    · exact Moves.refl b s
    · exact Moves.refl b s
    · next ha => exact resyncArmed_moves hr hv (hone _ ha) t k
    · next ha =>
      split
      · have hE := setFinal_eval s i
        refine (setFinal_moves hr he ha).trans
          (resyncActive_moves (hE.running.trans hr) (hE.awake hv) (fun e' he' => ?_) t k)
        simp only [State.setFinal, he, State.markEntry, State.slot_withSlot_self, Option.some.injEq] at he'
        exact he' ▸ ha
      · exact resyncActive_moves hr hv (hone _ ha) t k

/-! ### The engine's work -/

/-- The engine's work changes where the clock is VALID; its wipe stays. -/
theorem work_moves (hr : s.running = true) (hv : s.Awake) (e : Engine) (hw : e.wipe = s.engine.wipe) :
    Moves b s (s.withEngine e) :=
  .single (Move.engine e hr (fun h hq => hv.elim (fun hv => by rw [hv] at h; cases h) fun hn => absurd hq hn)
    fun w h i hi => .inl ⟨w, by rw [← hw, h], hi⟩)

theorem requestResync_moves (hr : s.running = true) (hv : s.Awake) : Moves b s s.requestResync := by
  unfold State.requestResync
  split
  · exact work_moves hr hv _ rfl
  · exact work_moves hr hv _ rfl

theorem engineBoundary_moves (hr : s.running = true) (hv : s.Awake) : Moves b s s.engineBoundary := by
  unfold State.engineBoundary
  split
  · exact work_moves hr hv _ rfl
  · exact work_moves hr hv _ rfl

theorem reports_moves (l : List Chan) {t : State} (hr : t.running = true) :
    Moves b t (l.foldl (fun t c => if t.arbiter.changed[c] then t.reportTop c else t) t) := by
  induction l generalizing t with
  | nil => exact Moves.refl b t
  | cons c cs ih =>
    simp only [List.foldl_cons]
    split
    · exact (Relation.ReflTransGen.single (Move.report c hr)).trans (ih hr)
    · exact ih hr

theorem flushBatch_moves (hr : s.running = true) : Moves b s s.flushBatch := by
  have h := reports_moves (b := b) allChannels hr
  have hE := (foldl_eval (fun t c => if t.arbiter.changed[c] then t.reportTop c else t)
    (fun t c => by
      split
      · exact reportTop_eval t c
      · exact EvalStep.refl t) allChannels s).running
  unfold State.flushBatch
  dsimp only
  generalize List.foldl _ s allChannels = u at h hE ⊢
  exact h.trans (.single (Move.record _ (hE.trans hr)))

theorem startSweep_moves (hr : s.running = true) (hn : s.engine.boundaryNoted = true) : Moves b s s.startSweep :=
  work_moves hr (.inr fun hq => by rw [hq.2.2] at hn; cases hn) _ rfl

theorem completeWork_moves (hr : s.running = true) (hv : s.Awake) (m : Minute) :
    Moves b s (s.completeWork m) := by
  have h1 : Moves b s (s.withEngine { s.engine with work := .idle, lastEvaluated := some m }) := work_moves hr hv _ rfl
  unfold State.completeWork
  dsimp only
  have h1r : (s.withEngine { s.engine with work := .idle, lastEvaluated := some m }).running = true := hr
  generalize s.withEngine { s.engine with work := .idle, lastEvaluated := some m } = u at h1 h1r ⊢
  have h2 := flushBatch_moves (b := b) h1r
  have hr2 := (flushBatch_eval u).running.trans h1r
  generalize u.flushBatch = w at h2 hr2 ⊢
  split
  · next hn => exact (h1.trans h2).trans (startSweep_moves hr2 hn)
  · exact h1.trans h2

end Sys2Proof.Machine
end

section
/-! PROOFS. What the readers of payloads accept: every value they give is in its ranges (R5 to R12, R34). -/

namespace Sys2Proof.Machine

/-! ### Dates (R34, R158) -/

theorem readDateRecord_possible {payload : List Byte} {r : DateRecord} (h : readDateRecord payload = some r) :
    r.date.possible = true := by
  unfold readDateRecord at h
  split at h
  · next hc =>
    obtain ⟨t, -, rfl⟩ := Option.map_eq_some_iff.1 h
    exact hc.2
  · cases h

/-! ### The entry descriptor (R12) -/

theorem readKind_sound {isEvent : Bool} {start : DayMinute} {bytes : List Byte} {k : Kind}
    (h : readKind isEvent start bytes = some k) :
    (∀ stop, k = .span stop → stop.possible = true ∧ stop ≠ start) ∧
      ∀ duration, k = .event duration → 1 ≤ duration ∧ duration ≤ 3600 := by
  unfold readKind at h
  split at h
  · split at h
    · cases h
    · cases h
      refine ⟨fun _ h => (nomatch h), fun d hd => ?_⟩
      cases hd
      omega
  · split at h
    · next hc =>
      cases h
      exact ⟨fun _ hs => Kind.span.inj hs ▸ hc, fun _ h => (nomatch h)⟩
    · cases h

theorem readAction_sound {code onWidth offWidth burst : Byte} {a : Action}
    (h : readAction code onWidth offWidth burst = some a) (shape : Shape) (ha : a = .pulse shape) :
    shape.onWidth ≠ 0 ∧ shape.offWidth ≠ 0 := by
  subst ha
  unfold readAction at h
  split at h
  · cases h
  · split at h
    · cases h
    · split at h
      · split at h
        · cases h
        · next hw =>
          cases h
          exact not_or.1 hw
      · cases h

theorem readOptionalDate_possible {isPresent : Bool} {d : Date} {x : Option Date}
    (h : readOptionalDate isPresent d = some x) (f : Date) (hf : x = some f) : f.possible = true := by
  subst hf
  unfold readOptionalDate at h
  split at h
  · split at h
    · next hp =>
      cases h
      exact hp
    · cases h
  · cases h

theorem readBudget_ne_zero {isPresent : Bool} {n : Byte} {x : Option Byte} (h : readBudget isPresent n = some x) :
    x ≠ some 0 := by
  rintro rfl
  unfold readBudget at h
  split at h
  · split at h
    · cases h
    · next hn => exact hn (Option.some.inj (Option.some.inj h))
  · cases h

theorem readDaySet_ne_zero {low high : Byte} {d : BitVec 10} (h : readDaySet low high = some d) : d ≠ 0 := by
  unfold readDaySet at h
  split at h
  · next hc =>
    cases h
    obtain ⟨hl, hh, hz⟩ := hc
    intro h0
    have h1 := congrArg BitVec.toNat h0
    simp only [BitVec.toNat_ofNat, BitVec.ofNat_eq_ofNat, Nat.zero_mod] at h1
    exact hz ⟨BitVec.eq_of_toNat_eq (by simp; omega), BitVec.eq_of_toNat_eq (by simp; omega)⟩
  · cases h

theorem labelFits_sound {bytes : List Byte} (h : labelFits bytes = true) :
    (bytes.drop 23).length ≤ Config.maxLabel ∧ (bytes.drop 23).all labelChar = true := by
  simp only [labelFits, Bool.and_eq_true, decide_eq_true_eq] at h
  refine ⟨?_, h.2⟩
  rw [List.length_drop]
  omega

/-- What a good descriptor reads as: its fields one by one, each as its own reader gives it. -/
theorem readDescriptor_cases {bytes : List Byte} {d : Definition} (h : readDescriptor bytes = some d) :
    labelFits bytes = true ∧ natAt bytes 2 ≤ 7 ∧ (dayMinuteAt bytes 5).possible = true ∧ d.priority = natAt bytes 2 ∧
      d.start = dayMinuteAt bytes 5 ∧ d.label = bytes.drop 23 ∧
      readDaySet (byteAt bytes 3) (byteAt bytes 4) = some d.daySet ∧
      readKind ((byteAt bytes 0).getLsbD 0) d.start bytes = some d.kind ∧
      readAction (byteAt bytes 9) (byteAt bytes 10) (byteAt bytes 11) (byteAt bytes 12) = some d.action ∧
      readOptionalDate ((byteAt bytes 13).getLsbD 0) (dateAt bytes 14) = some d.fromDate ∧
      readOptionalDate ((byteAt bytes 13).getLsbD 1) (dateAt bytes 17) = some d.untilDate ∧
      readBudget ((byteAt bytes 13).getLsbD 2) (byteAt bytes 20) = some d.budget ∧
      datesInOrder d.fromDate d.untilDate = true := by
  unfold readDescriptor at h
  split at h
  · cases h
  · next hl =>
    split at h
    · split at h
      · cases h
      · next hr =>
        split at h
        · next h1 h2 h3 h4 h5 h6 h7 =>
          split at h
          · next ho =>
            cases h
            have hp : natAt bytes 2 ≤ 7 ∧ (dayMinuteAt bytes 5).possible = true := by simpa using hr
            exact ⟨by simpa using hl, hp.1, hp.2, rfl, rfl, rfl, h1, h2, h3, h4, h5, h6, ho⟩
          · cases h
        · cases h
    · cases h

/-- A good descriptor has every field in its ranges (R2, R12). -/
theorem readDescriptor_sound {bytes : List Byte} {d : Definition} (h : readDescriptor bytes = some d) : d.sound := by
  obtain ⟨hl, hp, hs, e1, e2, e3, hd, hk, ha, hf, hu, hb, ho⟩ := readDescriptor_cases h
  have hkind := readKind_sound hk
  have haction := readAction_sound ha
  have hlabel := labelFits_sound hl
  refine ⟨e1 ▸ hp, readDaySet_ne_zero hd, e2 ▸ hs, ?_, ?_, readOptionalDate_possible hf, readOptionalDate_possible hu, ho,
    readBudget_ne_zero hb, e3 ▸ hlabel.1, e3 ▸ hlabel.2⟩
  · cases hx : d.kind with
    | span stop => exact hkind.1 stop hx
    | event duration => exact hkind.2 duration hx
  · cases hx : d.action with
    | off => trivial
    | on => trivial
    | pulse shape => exact haction shape hx

theorem readModify_sound {payload : List Byte} {i : SlotNo} {gen : Byte} {d : Definition}
    (h : readModify payload = some (i, gen, d)) : d.sound := by
  unfold readModify at h
  split at h
  · obtain ⟨d', hd, he⟩ := Option.map_eq_some_iff.1 h
    cases he
    exact readDescriptor_sound hd
  · cases h

end Sys2Proof.Machine
end

section
/-! PROOFS. The rows of the commands as runs of moves. -/

namespace Sys2Proof.Machine

variable {b : Bool} {s : State}

/-! ### What moves leave alone -/

theorem Move.running {t : State} (h : Move b s t) : t.running = s.running := by
  cases h with
  | place c k => exact (place_eval s c k).running
  | remove c src => exact (remove_eval s c src).running
  | report c => exact (reportTop_eval s c).running
  | free i => exact (freeSlot_eval s i).running
  | delete i => exact (deleteSlot_eval s i).running
  | withdraw i e e' gen => exact ((withdrawEntryClaim_eval s i).trans (withSlot_eval _ i _)).running
  | enter i e e' gen => exact ((withSlot_eval s i _).trans (placeEntryClaim_eval _ i)).running
  | update i e d gen => exact ((withSlot_eval s i _).trans (setList_eval _ _ _)).running
  | _ => rfl

theorem Moves.running {t : State} (h : Moves b s t) : t.running = s.running := by
  induction h with
  | refl => rfl
  | tail _ hm ih => exact hm.running.trans ih

theorem Move.pending {t : State} (h : Move b s t) : t.pending = s.pending := by
  cases h with
  | place c k => exact (place_eval s c k).pending
  | remove c src => exact (remove_eval s c src).pending
  | report c => exact (reportTop_eval s c).pending
  | free i => exact (freeSlot_eval s i).pending
  | delete i => exact (deleteSlot_eval s i).pending
  | withdraw i e e' gen => exact ((withdrawEntryClaim_eval s i).trans (withSlot_eval _ i _)).pending
  | enter i e e' gen => exact ((withSlot_eval s i _).trans (placeEntryClaim_eval _ i)).pending
  | update i e d gen => exact ((withSlot_eval s i _).trans (setList_eval _ _ _)).pending
  | _ => rfl

theorem Moves.pending {t : State} (h : Moves b s t) : t.pending = s.pending := by
  induction h with
  | refl => rfl
  | tail _ hm ih => exact hm.pending.trans ih

/-- A run of moves goes on from a state of a part that runs. -/
theorem Moves.then {t u : State} (h : Moves b s t) (hr : s.running = true) (k : t.running = true → Moves b t u) :
    Moves b s u :=
  h.trans (k (h.running.trans hr))

/-! ### Taking a request -/

theorem respond_moves (hr : s.running = true) (p : Port) (reply : Reply) : Moves b s (s.respond p reply) := by
  unfold State.respond
  split
  · exact Moves.refl b s
  · exact setPortSlot_moves hr p _

theorem serve_moves {c : Command} {p : Port} {body : Body}
    (h : s.running = true → ∀ payload, Moves b s (body payload s).1) : Moves b s (s.serve c p body) := by
  unfold State.serve
  split
  · next hr =>
    split
    · exact Moves.refl b s
    · split
      · exact (h hr _).then hr fun hr' => respond_moves hr' p _
      · exact Moves.refl b s
  · exact Moves.refl b s

theorem serveTable_moves {c : Command} {p : Port} {body : Body}
    (h : s.running = true → s.tableFree = true → ∀ payload, Moves b s (body payload s).1) :
    Moves b s (s.serveTable c p body) := by
  unfold State.serveTable
  split
  · next hf => exact serve_moves fun hr => h hr hf
  · exact Moves.refl b s

/-- A command on an existing entry acts on the entry its handle names. -/
theorem withHandle_moves {α : Type} {p : Port} {payload : List Byte} {handle : Option (SlotNo × Byte × α)}
    {k : SlotNo → Entry → α → State × Reply}
    (h : ∀ i gen x e, handle = some (i, gen, x) → (s.slot i).entry = some e → Moves b s (k i e x).1) :
    Moves b s (s.withHandle p payload handle k).1 := by
  unfold State.withHandle
  split
  · exact Moves.refl b s
  · split
    · exact Moves.refl b s
    · next i gen x =>
      split
      · exact Moves.refl b s
      · next e he =>
        split
        · exact Moves.refl b s
        · exact h i gen x e rfl he

/-! ### Table commands -/

theorem State.tableFree_iff : s.tableFree = true ↔ s.engine.wipe = none ∧ s.engine.work.isResync = false := by
  simp [State.tableFree, Option.isNone_iff_eq_none]

theorem newEntry_sound {d : Definition} (h : d.sound) (p : Port) : (newEntry d p).sound :=
  ⟨h, rfl, Nat.le_refl _, Nat.zero_le _, fun _ => ⟨rfl, rfl, rfl, rfl⟩, fun hx => nomatch hx⟩

theorem State.lowestEmpty_entry {i : SlotNo} (h : s.lowestEmpty = some i) : (s.slot i).entry = none := by
  have := List.find?_some h
  simpa [Option.isNone_iff_eq_none] using this

theorem addEntryBody_moves (hr : s.running = true) (hf : s.tableFree = true) (p : Port) (payload : List Byte) :
    Moves b s (addEntryBody p payload s).1 := by
  unfold addEntryBody
  split
  · exact Moves.refl b s
  · next defn hd =>
    split
    · exact Moves.refl b s
    · next i hi =>
      have hadd : Moves b s (s.stepEntry i (newEntry defn p)) :=
        .single (Move.add i _ _ hr (State.lowestEmpty_entry hi) (State.tableFree_iff.1 hf).1
          (newEntry_sound (readDescriptor_sound hd) p) (by simp [newEntry]))
      refine hadd.then hr fun hr' => admitAfterCommand_moves hr' fun e he => ?_
      simp only [State.stepEntry_slot_self, Option.some.injEq] at he
      exact he ▸ rfl

theorem Definition.sameTiming_iff {a d : Definition} :
    a.sameTiming d = true ↔ a.kind = d.kind ∧ a.channel = d.channel ∧ a.daySet = d.daySet ∧ a.start = d.start ∧
      a.fromDate = d.fromDate ∧ a.untilDate = d.untilDate ∧ a.budget = d.budget ∧ a.catchUp = d.catchUp := by
  simp [Definition.sameTiming]

/-- New in-place fields of good ranges keep an entry sound. -/
theorem Entry.sound_of_inPlace {e : Entry} {d : Definition} (hd : d.sound) (hb : d.budget = e.defn.budget) (h : e.sound) :
    ({ e with defn := d } : Entry).sound := by
  obtain ⟨-, h2, h3, h4⟩ := h
  exact ⟨hd, by rw [hb]; exact h2, by rw [hb]; exact h3, h4⟩

theorem freeAfterModify_moves (hr : s.running = true) (i : SlotNo) : Moves b s (s.freeAfterModify i) := by
  unfold State.freeAfterModify
  split
  · exact Moves.refl b s
  · next e he =>
    split
    · next hc =>
      refine freeSlot_moves hr fun e' he' => ?_
      rw [he] at he'
      cases he'
      exact Entry.not_stands_of_state (by rw [hc.1]; decide)
    · exact Moves.refl b s

theorem modifyInPlace_moves (hr : s.running = true) {i : SlotNo} {e : Entry} (he : (s.slot i).entry = some e)
    {d : Definition} (hd : d.sound) (ht : d.sameTiming e.defn = true) : Moves b s (s.modifyInPlace i e d) := by
  obtain ⟨-, hchan, -, -, -, -, hbud, -⟩ := Definition.sameTiming_iff.1 ht
  have hsound : e.sound → ({ e with defn := d } : Entry).sound := Entry.sound_of_inPlace hd hbud
  have hstep : Moves b s ((s.stepEntry i { e with defn := d }).updateEntryClaim i e d) := by
    unfold State.updateEntryClaim
    split
    · next hst => exact .single (Move.update i e d _ hr he hst hsound hchan)
    · next hn => exact stepEntry_moves hr he hsound (fun h => .inr h) (.of_not hn hn)
  exact hstep.then hr fun hr' => freeAfterModify_moves hr' i

theorem Entry.retimed_sound {e : Entry} {d : Definition} (hd : d.sound) : (e.retimed d).sound := by
  refine ⟨hd, rfl, Nat.le_refl _, Nat.zero_le _, fun _ => ⟨rfl, rfl, rfl, rfl⟩, fun hx => ?_⟩
  cases hs : e.state <;> simp [Entry.retimed, Entry.leaveActive, hs, EntryState.afterRetiming] at hx

theorem Entry.retimed_state (e : Entry) (d : Definition) :
    (e.retimed d).state = if e.state = .suspended then .suspended else .armed := by
  cases hs : e.state <;> simp [Entry.retimed, Entry.leaveActive, hs, EntryState.afterRetiming]

theorem modifyTiming_moves (hr : s.running = true) {i : SlotNo} {e : Entry} (he : (s.slot i).entry = some e)
    {d : Definition} (hd : d.sound) : Moves b s (s.modifyTiming i e d) := by
  have hs1 : Moves b s ((s.withdrawEntryClaim i).stepEntry i (e.retimed d)) :=
    .single (Move.withdraw i e (e.retimed d) _ hr he (fun _ => Entry.retimed_sound hd)
      (by rw [Entry.retimed_state]; split <;> decide))
  have hslot : (((s.withdrawEntryClaim i).stepEntry i (e.retimed d)).slot i).entry = some (e.retimed d) := by simp
  unfold State.modifyTiming
  dsimp only
  generalize (s.withdrawEntryClaim i).stepEntry i (e.retimed d) = u at hs1 hslot
  have hs2 : Moves b s (if e.state = .active then u.raiseEntry i .ended else u) := by
    split
    · exact hs1.then hr fun hr' => raiseEntry_moves hr' i .ended
    · exact hs1
  have hslot2 : ((if e.state = .active then u.raiseEntry i .ended else u).slot i).entry = some (e.retimed d) := by
    split
    · rw [State.raiseEntry_slot, hslot]
    · exact hslot
  generalize (if e.state = .active then u.raiseEntry i .ended else u) = w at hs2 hslot2
  split
  · exact hs2
  · next hn =>
    refine hs2.then hr fun hr' => admitAfterCommand_moves hr' fun e' he' => ?_
    rw [hslot2] at he'
    cases he'
    rw [Entry.retimed_state, if_neg hn]

theorem modify_moves (hr : s.running = true) {i : SlotNo} {e : Entry} (he : (s.slot i).entry = some e) {d : Definition}
    (hd : d.sound) : Moves b s (s.modify i e d) := by
  unfold State.modify
  split
  · exact Moves.refl b s
  · split
    · next ht => exact modifyInPlace_moves hr he hd ht
    · exact modifyTiming_moves hr he hd

theorem modifyEntryBody_moves (hr : s.running = true) (p : Port) (payload : List Byte) :
    Moves b s (modifyEntryBody p payload s).1 :=
  withHandle_moves fun _ _ _ _ hh he => modify_moves hr he (readModify_sound hh)

theorem suspendArmed_moves (hr : s.running = true) {i : SlotNo} {e : Entry} (he : (s.slot i).entry = some e)
    (ha : e.state = .armed) : Moves b s (s.suspendArmed i e) :=
  stepEntry_moves hr he (Entry.sound_of_inactive rfl rfl rfl rfl rfl rfl (by rw [ha]; decide) (by simp))
    (fun h => by cases h)
    (.of_not (Entry.not_stands_of_state (by rw [ha]; decide)) (Entry.not_stands_of_state (by simp)))

theorem suspendActive_moves (hr : s.running = true) {i : SlotNo} {e : Entry} (he : (s.slot i).entry = some e) :
    Moves b s (s.suspendActive i e) :=
  withdraw_raise_moves hr he .ended _
    (fun h => Entry.sound_of_same (e := e.leaveActive .suspended) rfl rfl rfl rfl rfl rfl rfl rfl
      (Entry.leaveActive_sound (by decide) h))
    (by simp [Entry.leaveActive]) rfl

theorem suspendEntryBody_moves (hr : s.running = true) (p : Port) (payload : List Byte) :
    Moves b s (suspendEntryBody p payload s).1 := by
  refine withHandle_moves fun i _ _ e _ he => ?_
  split
  · next ha => exact suspendArmed_moves hr he ha
  · exact suspendActive_moves hr he
  · exact Moves.refl b s
  · exact Moves.refl b s

theorem resume_moves (hr : s.running = true) {i : SlotNo} {e : Entry} (he : (s.slot i).entry = some e)
    (ha : e.state = .suspended) (rejoin : Bool) : Moves b s (s.resume i e rejoin) := by
  have hstep : Moves b s (s.stepEntry i { e with state := .armed, admissionDue := true, rejoin := rejoin }) :=
    stepEntry_moves hr he (Entry.sound_of_inactive rfl rfl rfl rfl rfl rfl (by rw [ha]; decide) (by simp))
      (fun h => by cases h)
      (.of_not (Entry.not_stands_of_state (by rw [ha]; decide)) (Entry.not_stands_of_state (by simp)))
  refine hstep.then hr fun hr' => admitAfterCommand_moves hr' fun e' he' => ?_
  simp only [State.stepEntry_slot_self, Option.some.injEq] at he'
  exact he' ▸ rfl

theorem resumeEntryBody_moves (hr : s.running = true) (p : Port) (payload : List Byte) :
    Moves b s (resumeEntryBody p payload s).1 := by
  refine withHandle_moves fun i _ rejoin e _ he => ?_
  split
  · next ha => exact resume_moves hr he ha rejoin
  · exact Moves.refl b s
  · exact Moves.refl b s
  · exact Moves.refl b s

theorem deleteEntryBody_moves (hr : s.running = true) (p : Port) (payload : List Byte) :
    Moves b s (deleteEntryBody p payload s).1 :=
  withHandle_moves fun i _ _ _ _ _ => .single (Move.delete i hr)

/-- A body that leaves the state as it is, whatever it answers. -/
theorem reader_moves {body : Body} (h : ∀ payload, (body payload s).1 = s) (payload : List Byte) :
    Moves b s (body payload s).1 :=
  .of_eq (h payload).symm

theorem readEntryBody_state (payload : List Byte) (s : State) : (readEntryBody payload s).1 = s := by
  unfold readEntryBody
  split
  · rfl
  · split <;> rfl

theorem findEntriesBody_state (payload : List Byte) (s : State) : (findEntriesBody payload s).1 = s := by
  unfold findEntriesBody
  split <;> rfl

/-! ### Wiping -/

theorem wipeEngine_moves (hr : s.running = true) (w : Option Wipe)
    (hw : ∀ w', w = some w' → ∀ i : SlotNo, i.val < w'.cursor →
      (∃ v, s.engine.wipe = some v ∧ i.val < v.cursor) ∨ (s.slot i).entry = none) :
    Moves b s (s.withEngine { s.engine with wipe := w }) :=
  .single (Move.engine _ hr (fun _ h => h) hw)

theorem takeWipe_moves (p : Port) : Moves b s (s.takeWipe p) := by
  unfold State.takeWipe
  split
  · next hf =>
    have hr : s.running = true := by simp at hf; exact hf.2
    split
    · exact Moves.refl b s
    · split
      · split
        · exact respond_moves hr p _
        · exact wipeEngine_moves hr _ fun w' hw' i hi => by cases hw'; exact absurd hi (Nat.not_lt_zero _)
      · exact Moves.refl b s
  · exact Moves.refl b s

@[simp] theorem State.freeSlot_slot_self (s : State) (i : SlotNo) :
    (s.freeSlot i).slot i = { gen := (s.slot i).gen + 1, entry := none } := by
  unfold State.freeSlot State.dropEntryNotice
  simp

theorem State.freeSlot_slot_ne (s : State) {i j : SlotNo} (h : j ≠ i) : (s.freeSlot i).slot j = s.slot j := by
  unfold State.freeSlot State.dropEntryNotice
  simp [State.slot_withSlot_ne _ _ h]

theorem State.wipeSlotStep_entry (s : State) (i : SlotNo) : ((s.wipeSlotStep i).slot i).entry = none := by
  unfold State.wipeSlotStep
  split
  · next h => exact h
  · simp [State.deleteSlot]

theorem cursorSlot_some {cursor : Nat} {i : SlotNo} (h : cursorSlot cursor = some i) : i.val = cursor := by
  unfold cursorSlot at h
  split at h
  · cases h; rfl
  · cases h

theorem wipeStep_moves : Moves b s s.wipeStep := by
  unfold State.wipeStep
  split
  · next hr =>
    split
    · exact Moves.refl b s
    · next w hw =>
      split
      · exact Moves.refl b s
      · next i hi =>
        have hmove : Moves b s (s.wipeSlotStep i) := by
          unfold State.wipeSlotStep
          split
          · exact Moves.refl b s
          · exact .single (Move.delete i hr)
        refine hmove.then hr fun hr' => wipeEngine_moves hr' _ fun w' hw' j hj => ?_
        cases hw'
        rcases Nat.lt_succ_iff_lt_or_eq.1 hj with hlt | heq
        · exact .inl ⟨w, by rw [(wipeSlotStep_eval s i).engine, hw], hlt⟩
        · have : j = i := Fin.ext (heq.trans (cursorSlot_some hi).symm)
          exact .inr (this ▸ State.wipeSlotStep_entry s i)
  · exact Moves.refl b s

theorem afterWipe_moves (hr : s.running = true) : Moves b s s.afterWipe := by
  unfold State.afterWipe
  split
  · next hq => exact work_moves hr (.inr fun h => by rw [h.2.1] at hq; cases hq) _ rfl
  · split
    · next hn => exact startSweep_moves hr (by simp at hn; exact hn.1)
    · exact Moves.refl b s

theorem takeWaiting_moves (p : Port) : Moves b s (s.takeWaiting p) := by
  unfold State.takeWaiting
  split
  · exact Moves.refl b s
  · split
    · exact serveTable_moves fun hr hf => addEntryBody_moves hr hf p
    · exact serveTable_moves fun _ _ => reader_moves fun payload => readEntryBody_state payload s
    · exact serveTable_moves fun hr _ => modifyEntryBody_moves hr p
    · exact serveTable_moves fun hr _ => suspendEntryBody_moves hr p
    · exact serveTable_moves fun hr _ => resumeEntryBody_moves hr p
    · exact serveTable_moves fun hr _ => deleteEntryBody_moves hr p
    · exact serveTable_moves fun _ _ => reader_moves fun payload => findEntriesBody_state payload s
    · exact takeWipe_moves p
    · exact Moves.refl b s

/-- A fold of steps each of which is a run of moves. -/
theorem foldl_moves {α : Type} (f : State → α → State) (hf : ∀ s a, s.running = true → Moves b s (f s a)) (l : List α)
    (hr : s.running = true) : Moves b s (l.foldl f s) := by
  induction l generalizing s with
  | nil => exact Moves.refl b s
  | cons a as ih => exact (hf s a hr).then hr fun hr' => ih hr'

theorem takeAllWaiting_moves (hr : s.running = true) (takes : List Port) : Moves b s (s.takeAllWaiting takes) :=
  foldl_moves _ (fun _ p _ => takeWaiting_moves p) takes hr

theorem completeWipe_moves (takes : List Port) : Moves b s (s.completeWipe takes) := by
  unfold State.completeWipe
  split
  · next hr =>
    split
    · exact Moves.refl b s
    · next w hw =>
      split
      · exact Moves.refl b s
      · have h1 : Moves b s (s.withEngine { s.engine with wipe := none }) :=
          wipeEngine_moves hr none fun w' hw' => by cases hw'
        exact ((h1.then hr fun h => respond_moves h w.port _).then hr fun h => afterWipe_moves h).then hr
          fun h => takeAllWaiting_moves h takes
  · exact Moves.refl b s

/-! ### The engine's rows -/

theorem State.awake_of_work (h : s.engine.work ≠ .idle) : s.Awake := .inr fun hq => h hq.1

/-- The engine goes on with its work at another cursor. -/
theorem cursor_moves (hr : s.running = true) (hw : s.engine.work ≠ .idle) (w : Work) :
    Moves b s (s.withEngine { s.engine with work := w }) :=
  work_moves hr (State.awake_of_work hw) _ rfl

theorem sweepStep_moves : Moves b s s.sweepStep := by
  unfold State.sweepStep
  split
  · next hg =>
    have hr : s.running = true := by simp at hg; exact hg.1
    split
    · exact Moves.refl b s
    · exact Moves.refl b s
    · next m cursor hwork =>
      have hn : s.engine.work ≠ .idle := by rw [hwork]; exact fun h => by cases h
      split
      · exact Moves.refl b s
      · next i hi =>
        exact (sweepSlot_moves hr (State.awake_of_work hn) i m).then hr fun hr' =>
          cursor_moves hr' (by rw [(sweepSlot_eval s i m).engine]; exact hn) _
  · exact Moves.refl b s

theorem sweepEnds_moves : Moves b s s.sweepEnds := by
  unfold State.sweepEnds
  split
  · next hg =>
    have hr : s.running = true := by simp at hg; exact hg.1
    split
    · exact Moves.refl b s
    · exact Moves.refl b s
    · next m cursor hwork =>
      split
      · exact Moves.refl b s
      · exact completeWork_moves hr (State.awake_of_work (by rw [hwork]; exact fun h => by cases h)) m
  · exact Moves.refl b s

theorem resyncStep_moves : Moves b s s.resyncStep := by
  unfold State.resyncStep
  split
  · next hr =>
    split
    · exact Moves.refl b s
    · exact Moves.refl b s
    · next t k cursor hwork =>
      have hn : s.engine.work ≠ .idle := by rw [hwork]; exact fun h => by cases h
      split
      · exact Moves.refl b s
      · next i hi =>
        exact (resyncSlot_moves hr (State.awake_of_work hn) i t k).then hr fun hr' =>
          cursor_moves hr' (by rw [(resyncSlot_eval s i t k).engine]; exact hn) _
  · exact Moves.refl b s

theorem resyncEnds_moves (takes : List Port) : Moves b s (s.resyncEnds takes) := by
  unfold State.resyncEnds
  split
  · next hr =>
    split
    · exact Moves.refl b s
    · exact Moves.refl b s
    · next t k cursor hwork =>
      split
      · exact Moves.refl b s
      · exact (completeWork_moves hr (State.awake_of_work (by rw [hwork]; exact fun h => by cases h)) _).then hr fun hr' =>
          takeAllWaiting_moves hr' takes
  · exact Moves.refl b s

end Sys2Proof.Machine
end

section
/-! PROOFS. Every transition of the output stage keeps a channel consistent with its settings (R115 to R130). -/

namespace Sys2Proof.Machine

variable {cfg : ChannelConfig} {run : ChannelRun}

theorem ChannelConfig.fallback_steady (cfg : ChannelConfig) : cfg.fallback.isSteady = true := by
  unfold ChannelConfig.fallback
  split <;> rfl

/-- Out of service a channel drives its fallback action with every timer idle (R119, R128). -/
theorem ChannelRun.outOfService_sound {state : ChannelState} {proof : Proof} (h1 : state = .disabled ↔ cfg.enabled = false)
    (h2 : state = .disabled → proof = .idle) (h3 : state = .faulted → proof = .fault)
    (h4 : proof = .idle ∨ proof = .fault) : ChannelSound cfg (ChannelRun.outOfService cfg state proof) := by
  refine ⟨h1, fun h => ⟨rfl, h2 h⟩, fun h => ⟨rfl, h3 h⟩, fun _ => ⟨rfl, rfl⟩, ?_, fun _ _ => rfl, fun _ _ => rfl, fun h => ?_⟩
  · simp [ChannelRun.outOfService, ChannelConfig.fallback_steady]
  · rcases h4 with rfl | rfl <;> simp [ChannelRun.outOfService] at h

/-- A channel in service on which the proof monitor has restarted (R125). -/
theorem ChannelRun.restartProof_sound (h : ChannelSound cfg run) (hd : run.state ≠ .disabled) (hf : run.state ≠ .faulted) :
    ChannelSound cfg (run.restartProof cfg) := by
  obtain ⟨h1, -, -, h4, h5, h6, -, -⟩ := h
  unfold ChannelRun.restartProof
  split
  · next hp => exact ⟨h1, fun h => absurd h hd, fun h => absurd h hf, h4, h5, h6, fun h => absurd rfl h, fun _ => hp⟩
  · exact ⟨h1, fun h => absurd h hd, fun h => absurd h hf, h4, h5, h6, fun _ _ => rfl, fun h => by simp at h⟩

/-- A channel in service on a fresh command (R117). -/
theorem ChannelRun.fresh_sound (he : cfg.enabled = true) (a : Action) : ChannelSound cfg (ChannelRun.fresh cfg none a) := by
  have happ : proofApplies cfg .guarding a = proofApplies cfg .normal a := by simp [proofApplies]
  unfold ChannelSound ChannelRun.fresh
  by_cases hg : cfg.guardTime = 0 <;> cases hp : proofApplies cfg .normal a <;> cases a <;>
    simp_all [Action.isSteady]

/-- A change of the commanded action of a channel in service that holds no pending action. -/
theorem ChannelRun.change_sound (he : cfg.enabled = true) (hf : run.state ≠ .faulted) (hp : run.pending = none) (a : Action) :
    ChannelSound cfg (run.change cfg a) := by
  rw [ChannelRun.change_eq hf, hp]
  exact ChannelRun.fresh_sound he a

theorem ChannelSound.enabled (h : ChannelSound cfg run) (hd : run.state ≠ .disabled) : cfg.enabled = true := by
  cases he : cfg.enabled with
  | true => rfl
  | false => exact absurd (h.1.2 he) hd

theorem ChannelRun.takeTarget_sound (h : ChannelSound cfg run) (a : Action) : ChannelSound cfg (run.takeTarget cfg a) := by
  unfold ChannelRun.takeTarget
  split
  · next hs =>
    split
    · exact h
    · exact ChannelRun.change_sound (h.enabled (by rw [hs]; decide)) (by rw [hs]; decide) (h.2.2.2.1 (by rw [hs]; decide)).2 a
  · next hs =>
    obtain ⟨h1, h2, h3, -, h5⟩ := h
    exact ⟨h1, h2, h3, fun hn => absurd hs hn, h5⟩
  · exact h
  · exact h

theorem ChannelRun.guardExpires_sound (h : ChannelSound cfg run) (hs : run.state = .guarding) :
    ChannelSound cfg (run.guardExpires cfg) := by
  have he := h.enabled (by rw [hs]; decide)
  have hidle : ∀ r : ChannelRun, r = { run with pending := none, state := .normal, guard := 0 } → ChannelSound cfg r := by
    obtain ⟨-, -, -, -, h5, h6, h7, h8⟩ := h
    rintro r rfl
    refine ⟨by simp [he], fun hc => (nomatch hc), fun hc => (nomatch hc), fun _ => ⟨rfl, rfl⟩, h5, h6, h7, fun hp => ?_⟩
    have := h8 hp
    rw [hs] at this
    simpa [proofApplies] using this
  unfold ChannelRun.guardExpires
  split
  · next hp => exact hidle _ (by rw [← hp])
  · split
    · exact hidle _ rfl
    · exact ChannelRun.change_sound he (by simp [hs]) rfl _

theorem ChannelRun.intoService_sound (he : cfg.enabled = true) (a : Action) : ChannelSound cfg (run.intoService cfg a) :=
  ChannelRun.change_sound he (by simp) rfl a

theorem ChannelRun.afterReset_sound (cfg : ChannelConfig) : ChannelSound cfg (ChannelRun.afterReset cfg) := by
  unfold ChannelRun.afterReset
  split
  · next he =>
    have hs : ∀ x, (ChannelRun.outOfService cfg x .idle).state = x := fun _ => rfl
    exact ChannelRun.restartProof_sound (ChannelRun.outOfService_sound (by simp [he]) (by simp) (by simp) (.inl rfl))
      (by simp [hs]) (by simp [hs])
  · next he => exact ChannelRun.outOfService_sound (by simpa using he) (by simp) (by simp) (.inl rfl)

/-- A channel in service whose settings change, its fallback taken as a target where it is one (R114). -/
theorem ChannelRun.configure_sound {old : ChannelConfig} (h : ChannelSound old run) (top : Option Top) :
    ChannelSound cfg (run.configure old cfg top) := by
  unfold ChannelRun.configure
  split
  · next he => exact ChannelRun.outOfService_sound (by simpa using he) (by simp) (by simp) (.inl rfl)
  · next he =>
    have he : cfg.enabled = true := by simpa using he
    have hserve : run.state = .normal ∨ run.state = .guarding →
        ChannelSound cfg ((run.newFallback old cfg top).restartProof cfg) := by
      intro hs
      have hd : run.state ≠ .disabled := by rcases hs with hs | hs <;> rw [hs] <;> decide
      have hf : run.state ≠ .faulted := by rcases hs with hs | hs <;> rw [hs] <;> decide
      -- Without its proof monitor the channel agrees with the new settings as well.
      have hbare : ChannelSound cfg { run with proof := .idle, proofTicks := 0 } := by
        obtain ⟨-, -, -, h4, h5, h6, -, -⟩ := h
        exact ⟨by simp [he, hd], fun hc => absurd hc hd, fun hc => absurd hc hf, h4, h5, h6, fun _ _ => rfl,
          fun hc => by simp at hc⟩
      have hbare' := ChannelRun.restartProof_sound hbare hd hf
      unfold ChannelRun.newFallback
      split
      · unfold ChannelRun.takeTarget
        rcases hs with hs | hs
        · rw [hs]
          dsimp only
          split
          · exact hbare'
          · rw [ChannelRun.change_eq hf]
            have hpend : run.pending = none := (h.2.2.2.1 (by rw [hs]; decide)).2
            rw [hpend]
            refine ChannelRun.restartProof_sound (ChannelRun.fresh_sound he _) ?_ ?_ <;>
              (unfold ChannelRun.fresh; dsimp only; split <;> decide)
        · have hpend : ChannelSound cfg { run with pending := some cfg.fallback, proof := .idle, proofTicks := 0 } := by
            obtain ⟨h1, h2, h3, -, h5⟩ := hbare
            exact ⟨h1, h2, h3, fun hn => absurd hs hn, h5⟩
          rw [hs]
          dsimp only
          rw [← hs]
          have hrestart := ChannelRun.restartProof_sound hpend hd hf
          exact hrestart
      · exact hbare'
    split
    · exact ChannelRun.intoService_sound he _
    · exact ChannelRun.outOfService_sound (by simp [he]) (by simp) (by simp) (.inr rfl)
    · next hs => exact hserve (.inl hs)
    · next hs => exact hserve (.inr hs)

theorem ChannelRun.phaseEnds_sound (h : ChannelSound cfg run) : ChannelSound cfg run.phaseEnds := by
  obtain ⟨h1, h2, h3, h4, h5, h6, h7, h8⟩ := h
  unfold ChannelRun.phaseEnds
  split
  · exact ⟨h1, h2, h3, h4, h5, h6, h7, h8⟩
  · exact ⟨h1, h2, h3, h4, h5, h6, h7, h8⟩
  · next shape hc =>
    have hst : run.commanded.isSteady = false := by rw [hc]; rfl
    split
    · exact ⟨h1, h2, h3, h4, by simp [hst], fun _ hn => absurd rfl hn, h7, h8⟩
    · split
      · exact ⟨h1, h2, h3, h4, by simp [hst], fun hn _ => absurd rfl hn, h7, h8⟩
      · split
        · exact ⟨h1, h2, h3, h4, by simp [hst], fun _ _ => rfl, h7, h8⟩
        · exact ⟨h1, h2, h3, h4, by simp [hst], fun hn _ => absurd rfl hn, h7, h8⟩
    · exact ⟨h1, h2, h3, h4, h5, h6, h7, h8⟩
    · exact ⟨h1, h2, h3, h4, h5, h6, h7, h8⟩

theorem ChannelRun.tick_sound (h : ChannelSound cfg run) (hundred : Bool) : ChannelSound cfg (run.tick hundred) := by
  obtain ⟨h1, h2, h3, h4, h5, h6, h7, h8⟩ := h
  refine ⟨h1, h2, h3, fun hn => ⟨?_, (h4 hn).2⟩, h5, fun ha hb => ?_, fun ha hb => ?_, h8⟩
  · have := (h4 hn).1
    unfold ChannelRun.tick
    dsimp only
    split <;> omega
  · have := h6 ha hb
    unfold ChannelRun.tick
    dsimp only
    omega
  · have := h7 ha hb
    unfold ChannelRun.tick
    dsimp only
    split <;> omega

/-- A judgement of the proof monitor at work: it stays where proof applies (R126, R127). -/
theorem ChannelRun.judged_sound (h : ChannelSound cfg run) (hw : run.proof = .settling ∨ run.proof = .agree ∨ run.proof = .disagree)
    {proof : Proof} {ticks : Nat} (hp : proof = .agree ∧ ticks = 0 ∨ proof = .disagree) :
    ChannelSound cfg { run with proof := proof, proofTicks := ticks } := by
  obtain ⟨h1, h2, h3, h4, h5, h6, h7, h8⟩ := h
  refine ⟨h1, fun hs => ?_, fun hs => ?_, h4, h5, h6, fun _ hd => ?_, fun _ => h8 hw⟩
  · have := (h2 hs).2
    rw [this] at hw
    simp at hw
  · have := (h3 hs).2
    rw [this] at hw
    simp at hw
  · rcases hp with ⟨rfl, rfl⟩ | rfl
    · rfl
    · exact absurd rfl hd

theorem State.watchSense_eq (s : State) (c : Chan) :
    ∃ run, s.watchSense c = s.withChannel c run ∧ (ChannelSound (s.config c) (s.channel c) → ChannelSound (s.config c) run) := by
  have hsame : s.withChannel c (s.channel c) = s := by simp [State.withChannel, State.channel]
  have hkeep : ∃ run, s = s.withChannel c run ∧ (ChannelSound (s.config c) (s.channel c) → ChannelSound (s.config c) run) :=
    ⟨s.channel c, hsame.symm, id⟩
  unfold State.watchSense
  split
  · next hp =>
    split
    · exact hkeep
    · exact ⟨_, rfl, fun h => ChannelRun.judged_sound h (.inr (.inl hp)) (.inr rfl)⟩
  · next hp =>
    split
    · exact ⟨_, rfl, fun h => ChannelRun.judged_sound h (.inr (.inr hp)) (.inl ⟨rfl, rfl⟩)⟩
    · exact hkeep
  · exact hkeep
  · exact hkeep
  · exact hkeep

end Sys2Proof.Machine
end

section
/-! PROOFS. The rows of the clock, the date set, the channels, the inputs, the attention unit, the ports and the timers as runs of
moves. -/

namespace Sys2Proof.Machine

variable {b : Bool} {s : State}

/-! ### The clock and the date set -/

theorem retirePast_sublist (records : List DateRecord) (d : Date) : (retirePast records d).Sublist records :=
  List.filter_sublist

theorem removeRecord_sublist (d : Date) (records : List DateRecord) : (removeRecord d records).Sublist records :=
  List.filter_sublist

/-- Soundness of the date set is about its records alone, and a part of a sound set is sound. -/
theorem State.DatesSound.of_sublist {t : State} (h : s.DatesSound) (hs : t.dates.records.Sublist s.dates.records) : t.DatesSound := by
  obtain ⟨h1, h2, h3⟩ := h
  exact ⟨hs.length_le.trans h1, h2.sublist hs, fun r hr => h3 r (hs.subset hr)⟩

theorem dates_moves (d : DateSet) (h : d.records.Sublist s.dates.records) : Moves b s (s.withDates d) :=
  .single (Move.dates d fun hs => hs.of_sublist h)

theorem recomputeClass_moves : Moves b s s.recomputeClass :=
  dates_moves _ (List.Sublist.refl _)

theorem dateChange_moves : Moves b s s.dateChange :=
  (dates_moves _ (retirePast_sublist _ _)).trans recomputeClass_moves

/-- A clock that keeps its validity, beside dividers that keep the timebase's state. -/
theorem clock_moves (pins : Pins) (tb : Timebase) (ck : Clock) (ht : tb.state = s.timebase.state)
    (hv : ck.valid = s.clock.valid) : Moves b s { s with pins := pins, timebase := tb, clock := ck } :=
  .single (Move.outside pins tb ck (fun h => hv.trans h) fun hs h => ht.trans (hs (hv.symm.trans h)))

theorem Clock.advanceMinute_valid (c : Clock) : c.advanceMinute.valid = c.valid := by
  unfold Clock.advanceMinute
  split
  · rfl
  · split <;> rfl

theorem Clock.advanceSecond_valid (c : Clock) : c.advanceSecond.valid = c.valid := by
  unfold Clock.advanceSecond
  split
  · rfl
  · exact c.advanceMinute_valid

theorem minuteBoundary_moves (hr : s.running = true) (hv : s.clock.valid = true) (dateChanged : Bool) :
    Moves b s (s.minuteBoundary dateChanged) := by
  unfold State.minuteBoundary
  have h1 : Moves b s (if dateChanged then s.dateChange else s) ∧
      (if dateChanged then s.dateChange else s).clock = s.clock := by
    split
    · exact ⟨dateChange_moves, rfl⟩
    · exact ⟨Moves.refl b s, rfl⟩
  exact (h1.1.then hr fun hr' => engineBoundary_moves hr' (.inl (by rw [h1.2]; exact hv))).then hr fun hr' =>
    tickAt_moves hr' true

theorem setClockBody_moves (hr : s.running = true) (p : Port) (payload : List Byte) : Moves b s (setClockBody p payload s).1 := by
  unfold setClockBody
  split
  · exact Moves.refl b s
  · split
    · exact Moves.refl b s
    · next t _ =>
      split
      · exact Moves.refl b s
      · next ht =>
        let ck : Clock :=
          { date := t.date, hour := t.time.hour, minute := t.time.minute, second := t.second, valid := true }
        have h1 : Moves b s ((s.withClock ck).restartDivider) :=
          .single (Move.outside s.pins { s.timebase with subSecond := 0 } ck (fun _ => rfl) fun _ _ => by simpa using ht)
        exact (Moves.then h1 hr fun _ => dateChange_moves).then hr fun hr' => requestResync_moves hr' (.inl rfl)

theorem snapMinuteBody_moves (hr : s.running = true) (p : Port) (payload : List Byte) :
    Moves b s (snapMinuteBody p payload s).1 := by
  unfold snapMinuteBody
  split
  · exact Moves.refl b s
  · split
    · exact Moves.refl b s
    · split
      · exact Moves.refl b s
      · next hv =>
        have hv : s.clock.valid = true := by simpa using hv
        unfold State.applySnap
        split
        · exact clock_moves s.pins { s.timebase with subSecond := 0 } { s.clock with second := 0 } rfl rfl
        · have h1 : Moves b s ((s.withClock s.clock.advanceMinute).restartDivider) :=
            clock_moves s.pins { s.timebase with subSecond := 0 } s.clock.advanceMinute rfl s.clock.advanceMinute_valid
          exact h1.then hr fun hr' => minuteBoundary_moves hr' (s.clock.advanceMinute_valid.trans hv) _

/-- A change of the records, whatever they are, and the resync it may request. -/
theorem recordsChanged_moves (hr : s.running = true) (records : List DateRecord)
    (h : s.DatesSound → (s.withDates { s.dates with records := records }).DatesSound) :
    Moves b s (s.recordsChanged records) := by
  have h1 : Moves b s ((s.withDates { s.dates with records := records }).recomputeClass) :=
    (Relation.ReflTransGen.single (Move.dates _ h)).trans recomputeClass_moves
  unfold State.recordsChanged
  dsimp only
  split
  · next hc => exact h1.then hr fun hr' => requestResync_moves hr' (.inl hc.2)
  · exact h1

/-- An insertion adds one record, but none beside a record of the same date. -/
theorem length_insertRecord_le (r : DateRecord) (l : List DateRecord) : (insertRecord r l).length ≤ l.length + 1 := by
  induction l with
  | nil => exact Nat.le_refl _
  | cons q qs ih =>
    unfold insertRecord
    split
    · simp
    · split
      · simp
      · simp only [List.length_cons]
        omega

theorem length_insertRecord_of_mem {r : DateRecord} {l : List DateRecord} (hs : l.Pairwise fun a b => a.date.before b.date = true)
    (h : ∃ q ∈ l, q.date = r.date) : (insertRecord r l).length = l.length := by
  induction l with
  | nil => simp at h
  | cons q qs ih =>
    obtain ⟨hq, hqs⟩ := List.pairwise_cons.1 hs
    unfold insertRecord
    split
    · rfl
    · next hne =>
      obtain ⟨x, hx, hxd⟩ := h
      have hx : x ∈ qs := (List.mem_cons.1 hx).resolve_left fun he => hne (he ▸ hxd)
      have hbefore := hq x hx
      rw [hxd] at hbefore
      split
      · next hb =>
        simp only [Date.before, decide_eq_true_eq] at hb hbefore
        omega
      · rw [List.length_cons, ih hqs ⟨x, hx, hxd⟩, List.length_cons]

theorem recordFor_isNone {records : List DateRecord} {d : Date} :
    (recordFor records d).isNone = true ↔ ∀ r ∈ records, r.date ≠ d := by
  simp [recordFor, Option.isNone_iff_eq_none]

theorem addDate_sound {r : DateRecord} (hp : r.date.possible = true)
    (hroom : ¬((recordFor s.dates.records r.date).isNone = true ∧ Config.dateCapacity ≤ s.dates.records.length))
    (h : s.DatesSound) : (s.withDates { s.dates with records := insertRecord r s.dates.records }).DatesSound := by
  obtain ⟨h1, h2, h3⟩ := h
  refine ⟨?_, insertRecord_ordered hp h3 h2, fun q hq => ?_⟩
  · show (insertRecord r s.dates.records).length ≤ _
    by_cases hm : ∃ q ∈ s.dates.records, q.date = r.date
    · rw [length_insertRecord_of_mem h2 hm]
      exact h1
    · have hnone : (recordFor s.dates.records r.date).isNone = true :=
        recordFor_isNone.2 fun q hq he => hm ⟨q, hq, he⟩
      have := length_insertRecord_le r s.dates.records
      have : ¬Config.dateCapacity ≤ s.dates.records.length := fun hc => hroom ⟨hnone, hc⟩
      omega
  · rcases (mem_insertRecord h2 q).1 hq with rfl | ⟨hq, -⟩
    · exact hp
    · exact h3 q hq

theorem addDateBody_moves (hr : s.running = true) (p : Port) (payload : List Byte) : Moves b s (addDateBody p payload s).1 := by
  unfold addDateBody
  split
  · exact Moves.refl b s
  · split
    · exact Moves.refl b s
    · next r hread =>
      split
      · exact Moves.refl b s
      · split
        · exact Moves.refl b s
        · next hroom =>
          exact recordsChanged_moves hr _ (addDate_sound (readDateRecord_possible hread) (by simpa using hroom))

theorem removeDateBody_moves (hr : s.running = true) (p : Port) (payload : List Byte) :
    Moves b s (removeDateBody p payload s).1 := by
  unfold removeDateBody
  split
  · exact Moves.refl b s
  · split
    · exact Moves.refl b s
    · split
      · exact Moves.refl b s
      · exact recordsChanged_moves hr _ fun h => h.of_sublist (removeRecord_sublist _ _)

theorem listDatesBody_state (payload : List Byte) (s : State) : (listDatesBody payload s).1 = s := by
  unfold listDatesBody
  split <;> rfl

theorem readClockBody_state (payload : List Byte) (s : State) : (readClockBody payload s).1 = s := by
  unfold readClockBody
  split <;> rfl

/-! ### Seconds -/

theorem clockSecond_moves (hv : s.clock.valid = true) : Moves b s s.clockSecond := by
  have h1 : Moves b s (s.withClock s.clock.advanceSecond) :=
    clock_moves s.pins s.timebase s.clock.advanceSecond rfl s.clock.advanceSecond_valid
  unfold State.clockSecond
  dsimp only
  split
  · exact h1
  · next hr =>
    have hr : s.running = true := by simpa using hr
    split
    · exact h1.then hr fun hr' => tickAt_moves hr' false
    · exact h1.then hr fun hr' => minuteBoundary_moves hr' (s.clock.advanceSecond_valid.trans hv) _

theorem secondBoundary_moves : Moves b s s.secondBoundary := by
  unfold State.secondBoundary
  split
  · have h1 : Moves b s (s.withTimebase { s.timebase with subSecond := 0 }) :=
      clock_moves s.pins { s.timebase with subSecond := 0 } s.clock rfl rfl
    dsimp only
    generalize s.withTimebase { s.timebase with subSecond := 0 } = u at h1
    have h2 : Moves b s (if u.running then u.countSeconds else u) := by
      split
      · next hr => exact h1.tail (Move.seconds hr)
      · exact h1
    generalize (if u.running then u.countSeconds else u) = w at h2
    split
    · next hv => exact h2.trans (clockSecond_moves hv)
    · exact h2
  · exact Moves.refl b s

theorem eventEnds_moves (i : SlotNo) : Moves b s (s.eventEnds i) := by
  unfold State.eventEnds
  split
  · next h => exact endOccurrence_moves (by simp at h; exact h.1) i
  · exact Moves.refl b s

theorem timedExpires_moves (c : Chan) (src : Source) : Moves b s (s.timedExpires c src) := by
  unfold State.timedExpires
  split
  · next h =>
    simp only [Bool.and_eq_true] at h
    obtain ⟨hr, hdue⟩ := h
    refine .single (Move.remove c src hr (.inr ?_))
    unfold State.timedDue at hdue
    split at hdue
    · cases hdue
    · next k hk => exact ⟨k, hk, fun he => by rw [he] at hdue; cases hdue⟩
  · exact Moves.refl b s

/-! ### Channels -/

theorem State.withConfig_config (s : State) (c : Chan) : s.withConfig c (s.config c) = s := by
  simp [State.withConfig, State.config]

/-- A channel's runtime changes under its settings. -/
theorem withChannel_moves (hr : s.running = true) (c : Chan) (run : ChannelRun)
    (h : ChannelSound (s.config c) (s.channel c) → ChannelSound (s.config c) run) : Moves b s (s.withChannel c run) := by
  have := Move.channel (irq := b) c (s.config c) run hr h
  rw [State.withConfig_config] at this
  exact .single this

theorem configureChannelBody_moves (hr : s.running = true) (p : Port) (payload : List Byte) :
    Moves b s (configureChannelBody p payload s).1 := by
  unfold configureChannelBody
  split
  · exact Moves.refl b s
  · split
    · exact Moves.refl b s
    · next c cfg _ => exact .single (Move.channel c cfg _ hr fun h => ChannelRun.configure_sound h _)

theorem readChannelBody_state (payload : List Byte) (s : State) : (readChannelBody payload s).1 = s := by
  unfold readChannelBody
  split <;> rfl

theorem readForceLifetime_fits {code : Byte} {minutes : Nat} {l : Lifetime} (h : readForceLifetime code minutes = some l) :
    l ≠ .entry ∧ l ≠ .momentary := by
  unfold readForceLifetime at h
  split at h
  · split at h
    · cases h
    · cases h
      exact ⟨by simp, by simp⟩
  · split at h
    · cases h
      exact ⟨by simp, by simp⟩
    · split at h
      · cases h
        exact ⟨by simp, by simp⟩
      · cases h

/-- A force's claim carries a lifetime that a port's claims may carry (R93, R105). -/
theorem readForce_fits {payload : List Byte} {f : Force} (h : readForce payload = some f) (p : Port) :
    (f.claim p).lifetimeFits = true := by
  unfold readForce at h
  split at h
  · cases h
  · split at h
    · split at h
      · next hl =>
        cases h
        have := readForceLifetime_fits hl
        unfold Force.claim Claim.lifetimeFits
        dsimp only
        split <;> simp_all
      · cases h
    · cases h

theorem forceChannelBody_moves (hr : s.running = true) (p : Port) (payload : List Byte) :
    Moves b s (forceChannelBody p payload s).1 := by
  unfold forceChannelBody
  split
  · exact Moves.refl b s
  · split
    · exact Moves.refl b s
    · next f hf =>
      split
      · exact Moves.refl b s
      · next hv =>
        split
        · exact Moves.refl b s
        · exact .single (Move.place f.channel (f.claim p) hr (by simpa using hv) rfl (readForce_fits hf p))

theorem releaseChannelBody_moves (hr : s.running = true) (p : Port) (payload : List Byte) :
    Moves b s (releaseChannelBody p payload s).1 := by
  unfold releaseChannelBody
  split
  · exact Moves.refl b s
  · split
    · exact Moves.refl b s
    · split
      · exact Moves.refl b s
      · exact .single (Move.remove _ (.port p) hr (.inl rfl))

theorem clearFaultBody_moves (hr : s.running = true) (p : Port) (payload : List Byte) :
    Moves b s (clearFaultBody p payload s).1 := by
  unfold clearFaultBody
  split
  · exact Moves.refl b s
  · split
    · exact Moves.refl b s
    · split
      · exact Moves.refl b s
      · next hs =>
        have hs := not_ne_iff.1 hs
        exact withChannel_moves hr _ _ fun h => ChannelRun.intoService_sound (h.enabled (by rw [hs]; decide)) _

theorem guardExpiry_moves (c : Chan) : Moves b s (s.guardExpiry c) := by
  unfold State.guardExpiry
  split
  · next h =>
    simp only [Bool.and_eq_true, ChannelRun.guardDue, decide_eq_true_eq] at h
    exact withChannel_moves h.1 c _ fun hc => ChannelRun.guardExpires_sound hc h.2.1
  · exact Moves.refl b s

theorem proofExpiry_moves (c : Chan) : Moves b s (s.proofExpiry c) := by
  unfold State.proofExpiry
  split
  · next h =>
    simp only [Bool.and_eq_true, ChannelRun.proofDue, decide_eq_true_eq] at h
    obtain ⟨hr, hp, -⟩ := h
    have hwork : (s.channel c).proof = .settling ∨ (s.channel c).proof = .agree ∨ (s.channel c).proof = .disagree :=
      hp.imp_right .inr
    split
    · exact withChannel_moves hr c _ fun hc => ChannelRun.judged_sound hc hwork (.inl ⟨rfl, rfl⟩)
    · refine (withChannel_moves hr c _ fun hc => ?_).then hr fun hr' => raiseChannel_moves hr' c .fault
      have hd : (s.channel c).state ≠ .disabled := fun hd => by
        rw [(hc.2.1 hd).2] at hp
        simp at hp
      exact ChannelRun.outOfService_sound (by simp [hc.enabled hd]) (by simp) (by simp) (.inr rfl)
  · exact Moves.refl b s

theorem sensePin_moves (c : Chan) (high : Bool) : Moves b s (s.sensePin c high) := by
  have h1 : Moves b s (s.withPins { s.pins with senses := s.pins.senses.set c high }) :=
    clock_moves _ s.timebase s.clock rfl rfl
  unfold State.sensePin
  dsimp only
  split
  · next hr =>
    refine h1.then hr fun hr' => ?_
    obtain ⟨run, he, hs⟩ := State.watchSense_eq (s.withPins { s.pins with senses := s.pins.senses.set c high }) c
    rw [he]
    exact withChannel_moves hr' c run hs
  · exact h1

theorem pulsePhaseEnds_moves (c : Chan) : Moves b s (s.pulsePhaseEnds c) := by
  unfold State.pulsePhaseEnds
  split
  · next h => exact withChannel_moves (by simp at h; exact h.1) c _ ChannelRun.phaseEnds_sound
  · exact Moves.refl b s

/-! ### Inputs -/

/-- An input's runtime changes but for its latches. -/
theorem withInput_moves (hr : s.running = true) (k : InputNo) (r : InputRun) (hp : r.pressSeen = (s.input k).pressSeen)
    (hl : r.releaseSeen = (s.input k).releaseSeen) : Moves b s (s.withInput k r) := by
  refine .single (Move.notices s.attention (s.inputs.set k r) hr (fun _ h => .inl h) fun _ => ?_)
  refine .of_same rfl fun g => ?_
  have hget : s.inputs[k.val] = s.input k := rfl
  cases g with
  | input =>
    simp only [State.groupPending]
    rw [Bool.eq_iff_iff, List.any_eq_true, List.any_eq_true]
    simp only [Vector.mem_toList_iff, Vector.mem_iff_getElem]
    constructor
    · rintro ⟨x, ⟨j, hj, rfl⟩, hx⟩
      by_cases hkj : k.val = j
      · subst hkj
        refine ⟨s.inputs[k.val], ⟨k.val, hj, rfl⟩, ?_⟩
        simp only [Vector.getElem_set_self] at hx
        rw [hget, ← hp, ← hl]
        exact hx
      · rw [Vector.getElem_set_ne _ _ hkj] at hx
        exact ⟨_, ⟨j, hj, rfl⟩, hx⟩
    · rintro ⟨x, ⟨j, hj, rfl⟩, hx⟩
      by_cases hkj : k.val = j
      · subst hkj
        refine ⟨r, ⟨k.val, hj, by simp⟩, ?_⟩
        rw [hp, hl, ← hget]
        exact hx
      · exact ⟨_, ⟨j, hj, rfl⟩, by rw [Vector.getElem_set_ne _ _ hkj]; exact hx⟩
  | _ => rfl

theorem withdrawInput_moves (hr : s.running = true) (k : InputNo) : Moves b s (s.withdrawInput k) :=
  foldl_moves _ (fun _ _ hr => .single (Move.remove _ _ hr (.inl rfl))) allChannels hr

theorem bindInputBody_moves (hr : s.running = true) (p : Port) (payload : List Byte) :
    Moves b s (bindInputBody p payload s).1 := by
  unfold bindInputBody
  split
  · exact Moves.refl b s
  · split
    · exact Moves.refl b s
    · next k bd _ =>
      have h2 : ∀ u : State, u.running = true → Moves b u (u.withBinding k bd) := fun u hu =>
        .single (Move.settings u.policy (u.bindings.set k bd) hu)
      exact ((withdrawInput_moves hr k).then hr fun hr' => h2 _ hr').then hr fun hr' => withInput_moves hr' k _ rfl rfl

theorem readInputBody_state (payload : List Byte) (s : State) : (readInputBody payload s).1 = s := by
  unfold readInputBody
  split <;> rfl

theorem placeInputClaim_moves (hr : s.running = true) (hv : s.clock.valid = true) (k : InputNo) (c : Chan) :
    Moves b s (s.placeInputClaim k c) := by
  unfold State.placeInputClaim
  dsimp only
  split
  · refine .single (Move.place c _ hr hv rfl ?_)
    unfold Binding.claim Claim.lifetimeFits Mode.lifetime
    cases (s.binding k).mode <;> rfl
  · exact raiseChannel_moves hr c .displaced

theorem pressOn_moves (hr : s.running = true) (hv : s.clock.valid = true) (k : InputNo) (c : Chan) :
    Moves b s (s.pressOn k c) := by
  have hplace := placeInputClaim_moves (b := b) hr hv k c
  have htoggle : Moves b s (s.toggleInputClaim k c) := by
    unfold State.toggleInputClaim
    split
    · exact .single (Move.remove _ _ hr (.inl rfl))
    · exact hplace
  unfold State.pressOn
  split
  · exact hplace
  · exact hplace
  · exact htoggle
  · exact htoggle

theorem releaseOn_moves (hr : s.running = true) (k : InputNo) (c : Chan) : Moves b s (s.releaseOn k c) := by
  unfold State.releaseOn
  split
  · exact .single (Move.remove _ _ hr (.inl rfl))
  · exact Moves.refl b s
  · exact Moves.refl b s
  · exact Moves.refl b s

theorem Move.valid {t : State} (h : Move b s t) (hv : s.clock.valid = true) : t.clock.valid = true := by
  cases h with
  | outside pins tb ck h1 _ => exact h1 hv
  | place c k => rw [(place_eval s c k).clock]; exact hv
  | remove c src => rw [(remove_eval s c src).clock]; exact hv
  | report c => rw [(reportTop_eval s c).clock]; exact hv
  | free i => rw [(freeSlot_eval s i).clock]; exact hv
  | delete i => rw [(deleteSlot_eval s i).clock]; exact hv
  | withdraw i e e' gen => rw [((withdrawEntryClaim_eval s i).trans (withSlot_eval _ i _)).clock]; exact hv
  | enter i e e' gen => rw [((withSlot_eval s i _).trans (placeEntryClaim_eval _ i)).clock]; exact hv
  | update i e d gen => rw [((withSlot_eval s i _).trans (setList_eval _ _ _)).clock]; exact hv
  | _ => exact hv

theorem Moves.valid {t : State} (h : Moves b s t) (hv : s.clock.valid = true) : t.clock.valid = true :=
  h.keeps (I := fun u => u.clock.valid = true) (fun hm => hm.valid) hv

/-- A fold of steps each of which is a run of moves while the clock is VALID. -/
theorem foldl_moves_of_valid {α : Type} (f : State → α → State)
    (hf : ∀ (u : State) (a : α), u.running = true → u.clock.valid = true → Moves b u (f u a)) (l : List α)
    (hr : s.running = true) (hv : s.clock.valid = true) : Moves b s (l.foldl f s) := by
  induction l generalizing s with
  | nil => exact Moves.refl b s
  | cons a as ih =>
    have ha := hf s a hr hv
    exact ha.trans (ih (ha.running.trans hr) (ha.valid hv))

theorem actOnMask_moves (hr : s.running = true) (k : InputNo) (act : State → InputNo → Chan → State)
    (h : ∀ (u : State) c, u.running = true → u.clock.valid = true → Moves b u (act u k c)) : Moves b s (s.actOnMask k act) := by
  unfold State.actOnMask
  split
  · next hg => exact foldl_moves_of_valid _ h _ hr (by simp at hg; exact hg.2)
  · exact Moves.refl b s

theorem debounceExpires_moves (k : InputNo) : Moves b s (s.debounceExpires k) := by
  unfold State.debounceExpires
  split
  · next hg =>
    have hr : s.running = true := by simp at hg; exact hg.1
    -- A latch is set, and IRQN follows it.
    have hlatch : ∀ r : InputRun, Moves b s (s.irqFollow (s.withInput k r)) := fun r =>
      notices_moves hr s.attention (s.inputs.set k r) (fun _ h => .inl h) rfl rfl
    unfold State.qualify
    dsimp only
    split
    · exact (hlatch _).then hr fun hr' => actOnMask_moves hr' k _ fun u c hu hv => pressOn_moves hu hv k c
    · exact (hlatch _).then hr fun hr' => actOnMask_moves hr' k _ fun u c hu _ => releaseOn_moves hu k c
  · exact Moves.refl b s

theorem inputPin_moves (k : InputNo) (high : Bool) : Moves b s (s.inputPin k high) := by
  have h1 : Moves b s (s.withPins { s.pins with inputs := s.pins.inputs.set k high }) :=
    clock_moves _ s.timebase s.clock rfl rfl
  unfold State.inputPin
  dsimp only
  split
  · exact h1
  · next hr =>
    have hr : s.running = true := by simpa using hr
    split
    · exact h1.then hr fun hr' => withInput_moves hr' k _ rfl rfl
    · split
      · exact h1.then hr fun hr' => withInput_moves hr' k _ rfl rfl
      · exact h1

/-! ### The attention unit and the policy -/

theorem nextCauseBody_state (payload : List Byte) (s : State) : (nextCauseBody payload s).1 = s := by
  unfold nextCauseBody
  split <;> rfl

theorem freeTaken_moves (hr : s.running = true) (i : SlotNo) (causes : BitVec 5) : Moves b s (s.freeTaken i causes) := by
  unfold State.freeTaken
  split
  · exact Moves.refl b s
  · next e he =>
    split
    · next hc =>
      refine freeSlot_moves hr fun e' he' => ?_
      rw [he] at he'
      cases he'
      exact Entry.not_stands_of_state (by rw [hc.2.1]; decide)
    · exact Moves.refl b s

theorem nextEntryNoticeBody_moves (hr : s.running = true) (payload : List Byte) :
    Moves b s (nextEntryNoticeBody payload s).1 := by
  unfold nextEntryNoticeBody
  split
  · exact Moves.refl b s
  · split
    · exact Moves.refl b s
    · exact (dropEntryNotice_moves hr _).then hr fun hr' => freeTaken_moves hr' _ _

theorem takeChannelNoticeBody_moves (hr : s.running = true) (payload : List Byte) :
    Moves b s (takeChannelNoticeBody payload s).1 := by
  unfold takeChannelNoticeBody
  split
  · exact Moves.refl b s
  · split
    · exact Moves.refl b s
    · exact notices_moves hr _ s.inputs (fun _ h => .inl h) rfl rfl

theorem takeInputEventsBody_moves (hr : s.running = true) (payload : List Byte) :
    Moves b s (takeInputEventsBody payload s).1 := by
  unfold takeInputEventsBody
  split
  · exact Moves.refl b s
  · exact notices_moves hr s.attention _ (fun _ h => .inl h) rfl rfl

theorem ackClockBody_moves (hr : s.running = true) (payload : List Byte) : Moves b s (ackClockBody payload s).1 := by
  unfold ackClockBody
  split
  · exact Moves.refl b s
  · exact notices_moves hr _ s.inputs (fun _ h => .inl h) rfl rfl

/-- CONFIGURE_ATTENTION moves the mode itself, so that it is no move in which IRQN follows the mode that stood. -/
theorem configureAttentionBody_moves (hr : s.running = true) (p : Port) (payload : List Byte) :
    Moves false s (configureAttentionBody p payload s).1 := by
  unfold configureAttentionBody
  split
  · exact Moves.refl false s
  · split
    · exact Moves.refl false s
    · exact .single (Move.notices _ s.inputs hr (fun _ h => .inl h) fun h => by cases h)

theorem setPanelPolicyBody_moves (hr : s.running = true) (p : Port) (payload : List Byte) :
    Moves b s (setPanelPolicyBody p payload s).1 := by
  unfold setPanelPolicyBody
  split
  · exact Moves.refl b s
  · split
    · exact Moves.refl b s
    · exact .single (Move.settings _ s.bindings hr)

theorem pulseEnds_moves : Moves false s s.pulseEnds := by
  unfold State.pulseEnds
  split
  · next hr => exact .single (Move.notices _ s.inputs hr (fun _ h => .inl h) fun h => by cases h)
  · exact Moves.refl false s

/-! ### The ports -/

theorem State.running_of_answers {p : Port} (h : s.answers p = true) : s.running = true :=
  (State.answers_iff.1 h).1

theorem shiftOut_moves (hr : s.running = true) (p : Port) (bytes : List Byte) : Moves b s (s.shiftOut p bytes) :=
  withPort_moves hr p _ rfl

theorem select_moves (hr : s.running = true) (p : Port) (x : Option Selection) : Moves b s (s.select p x) := by
  cases p
  · exact Moves.refl b s
  · exact withPanelBus_moves hr _

theorem acknowledge_moves (hr : s.running = true) (p : Port) (acks : List Bool) : Moves b s (s.acknowledge p acks) := by
  cases p
  · exact Moves.refl b s
  · exact withPanelBus_moves hr _

theorem byteTaken_moves (hr : s.running = true) (p : Port) (acked : Bool) : Moves b s (s.byteTaken p acked) := by
  cases p
  · exact shiftOut_moves hr .main _
  · exact withPanelBus_moves hr _

theorem endTransaction_moves (hr : s.running = true) (p : Port) : Moves b s (s.endTransaction p) := by
  unfold State.endTransaction
  split
  · next hs => exact withPort_moves hr p _ (by rw [hs]; rfl)
  all_goals exact Moves.refl b s

theorem submitKind_moves (hr : s.running = true) (p : Port) : Moves b s (s.submitKind p) := by
  unfold State.submitKind
  split
  · next hs => exact withPort_moves hr p _ (by rw [hs]; rfl)
  all_goals exact withPort_moves hr p _ rfl

theorem submitOn_moves (p : Port) : Moves b s (s.submitOn p) := by
  unfold State.submitOn
  split
  · next ha =>
    have hr := State.running_of_answers ha
    exact (((submitKind_moves hr p).then hr fun h => select_moves h p none).then hr fun h => shiftOut_moves h p []).then hr
      fun h => acknowledge_moves h p _
  · exact Moves.refl b s

theorem frameByte_moves (hr : s.running = true) (p : Port) (x : Byte) : Moves b s (State.frameByte p s x) := by
  unfold State.frameByte
  split
  · exact (setPortSlot_moves hr p _).then hr fun h => byteTaken_moves h p _
  all_goals exact byteTaken_moves hr p _

theorem receiveFrame_moves (p : Port) (bytes : List Byte) : Moves b s (s.receiveFrame p bytes) := by
  unfold State.receiveFrame
  split
  · next ha => exact foldl_moves _ (fun _ x hr => frameByte_moves hr p x) bytes (State.running_of_answers ha)
  · exact Moves.refl b s

theorem fetchBytes_moves (hr : s.running = true) (p : Port) (n : Nat) : Moves b s (s.fetchBytes p n) := by
  unfold State.fetchBytes
  split
  · dsimp only
    split
    · exact (shiftOut_moves hr p _).then hr fun h => setPortSlot_moves h p _
    · exact shiftOut_moves hr p _
  all_goals exact shiftOut_moves hr p _

theorem pollBytes_moves (hr : s.running = true) (p : Port) (n : Nat) : Moves b s (s.pollBytes p n) := by
  unfold State.pollBytes
  dsimp only
  split
  · exact (shiftOut_moves hr p _).then hr fun h => withPort_moves h p _ rfl
  · exact shiftOut_moves hr p _

theorem selecting_moves (hr : s.running = true) (x : Option Selection) (acks : List Bool) :
    Moves b s (((s.endTransaction .panel).select .panel x).acknowledge .panel acks) :=
  ((endTransaction_moves hr .panel).then hr fun h => select_moves h .panel _).then hr fun h => acknowledge_moves h .panel _

theorem fetchOn_moves (p : Port) (n : Nat) : Moves b s (s.fetchOn p n) := by
  unfold State.fetchOn
  split
  · next ha =>
    have hr := State.running_of_answers ha
    cases p
    · exact (endTransaction_moves hr .main).then hr fun h => fetchBytes_moves h .main n
    · exact selecting_moves hr _ _
  · exact Moves.refl b s

theorem pollOn_moves (p : Port) (n : Nat) : Moves b s (s.pollOn p n) := by
  unfold State.pollOn
  split
  · next ha =>
    have hr := State.running_of_answers ha
    cases p
    · exact (endTransaction_moves hr .main).then hr fun h => pollBytes_moves h .main n
    · exact selecting_moves hr _ _
  · exact Moves.refl b s

theorem badKindOn_moves (p : Port) (kind : Byte) (n : Nat) : Moves b s (s.badKindOn p kind n) := by
  unfold State.badKindOn
  split
  · next ha =>
    have hr : s.running = true := State.running_of_answers (p := p) (by simp at ha; exact ha.1)
    have h1 : Moves b s ((s.endTransaction p).setBadKind p) :=
      (endTransaction_moves hr p).then hr fun h => withPort_moves h p _ rfl
    dsimp only
    cases p
    · exact h1.then hr fun h => shiftOut_moves h .main _
    · exact (h1.then hr fun h => select_moves h .panel none).then hr fun h => acknowledge_moves h .panel _
  · exact Moves.refl b s

theorem panelReadOn_moves (n : Nat) : Moves b s (s.panelReadOn n) := by
  unfold State.panelReadOn
  split
  · next ha =>
    have hr := State.running_of_answers ha
    have h1 : Moves b s ((s.endTransaction .panel).select .panel none) :=
      (endTransaction_moves hr .panel).then hr fun h => select_moves h .panel none
    dsimp only
    split
    · exact h1.then hr fun h => fetchBytes_moves h .panel n
    · exact h1.then hr fun h => pollBytes_moves h .panel n
    · have h2 : Moves b s (((s.endTransaction .panel).select .panel none).setBadKind .panel) :=
        h1.then hr fun h => withPort_moves h .panel _ rfl
      exact h2.then hr fun h => shiftOut_moves h .panel _
  · exact Moves.refl b s

theorem regainFooting_moves (p : Port) : Moves b s (s.regainFooting p) := by
  unfold State.regainFooting
  split
  · next hr => exact (endTransaction_moves hr p).then hr fun h => withPort_moves h p _ rfl
  · exact Moves.refl b s

/-! ### The crystal's edges -/

theorem setTimebase_moves (t : TimebaseState) (h : s.timebase.state ≠ .running ∨ t = .running) :
    Moves b s (s.setTimebase t) :=
  .single (Move.outside s.pins { s.timebase with state := t } s.clock id fun hs hv =>
    h.elim (fun hn => absurd (hs hv) hn) id)

theorem crystalEdge_moves : Moves b s s.crystalEdge := by
  unfold State.crystalEdge
  split
  · exact Moves.refl b s
  · split
    · next hs => exact setTimebase_moves _ (.inl (by rw [hs]; decide))
    · next hs => exact setTimebase_moves _ (.inl (by rw [hs]; decide))
    · exact Moves.refl b s
    · exact Moves.refl b s

theorem crystalTrusted_moves : Moves b s s.crystalTrusted := by
  unfold State.crystalTrusted
  split
  · exact Moves.refl b s
  · split
    · exact setTimebase_moves _ (.inr rfl)
    all_goals exact Moves.refl b s

end Sys2Proof.Machine
end

section
/-! PROOFS. Every row of the opcode table, and every step, as a run of moves or as a step of the supplies; that every row answers a
next state follows. -/

namespace Sys2Proof.Machine

variable {s t : State}

/-- The rows of the supplies, of RSTN and of a crystal gap: they change whole blocks at once. -/
inductive SupplyStep (s : State) : State → Prop where
  | gap : SupplyStep s s.crystalGap
  | rstnLow : SupplyStep s s.rstnGoesLow
  | rstnRises (adsel : Bool) : SupplyStep s (s.rstnRises adsel)
  | vmainLost : SupplyStep s s.vmainLost
  | vmainReturns (adsel : Bool) : SupplyStep s (s.vmainReturns adsel)
  | vbakAppears : SupplyStep s s.vbakAppears
  | vbakLost : SupplyStep s s.vbakLost

/-- IRQN follows every row but the two that move its mode or its pulse themselves. -/
def irqRow : Instr → Bool
  | .configureAttention _ => false
  | .irqnPulseEnd => false
  | _ => true

/-- Everything a row can do. -/
theorem exec_cases {c : Instr} (h : exec c s = .next t) : SupplyStep s t ∨ Moves (irqRow c) s t := by
  cases c <;> obtain rfl := Host.Outcome.next.inj h
  case submit p => exact .inr (submitOn_moves p)
  case requestFrame p bytes => exact .inr (receiveFrame_moves p bytes)
  case submitTruncated p =>
    refine .inr ?_
    split
    · next ha => exact endTransaction_moves (State.running_of_answers ha) p
    · exact Moves.refl _ s
  case fetch p n => exact .inr (fetchOn_moves p n)
  case poll p n => exact .inr (pollOn_moves p n)
  case badKind p kind n => exact .inr (badKindOn_moves p kind n)
  case panelRead n => exact .inr (panelReadOn_moves n)
  case readClock p => exact .inr (serve_moves fun _ => reader_moves fun x => readClockBody_state x s)
  case setClock p => exact .inr (serve_moves fun hr => setClockBody_moves hr p)
  case snapMinute p => exact .inr (serve_moves fun hr => snapMinuteBody_moves hr p)
  case addDate p => exact .inr (serve_moves fun hr => addDateBody_moves hr p)
  case removeDate p => exact .inr (serve_moves fun hr => removeDateBody_moves hr p)
  case listDates p => exact .inr (serve_moves fun _ => reader_moves fun x => listDatesBody_state x s)
  case addEntry p => exact .inr (serveTable_moves fun hr hf => addEntryBody_moves hr hf p)
  case readEntry p => exact .inr (serveTable_moves fun _ _ => reader_moves fun x => readEntryBody_state x s)
  case modifyEntry p => exact .inr (serveTable_moves fun hr _ => modifyEntryBody_moves hr p)
  case suspendEntry p => exact .inr (serveTable_moves fun hr _ => suspendEntryBody_moves hr p)
  case resumeEntry p => exact .inr (serveTable_moves fun hr _ => resumeEntryBody_moves hr p)
  case deleteEntry p => exact .inr (serveTable_moves fun hr _ => deleteEntryBody_moves hr p)
  case findEntries p => exact .inr (serveTable_moves fun _ _ => reader_moves fun x => findEntriesBody_state x s)
  case wipeTable p => exact .inr (takeWipe_moves p)
  case wipeSlot => exact .inr wipeStep_moves
  case wipeComplete takes => exact .inr (completeWipe_moves takes)
  case configureChannel p => exact .inr (serve_moves fun hr => configureChannelBody_moves hr p)
  case readChannel p => exact .inr (serve_moves fun _ => reader_moves fun x => readChannelBody_state x s)
  case forceChannel p => exact .inr (serve_moves fun hr => forceChannelBody_moves hr p)
  case releaseChannel p => exact .inr (serve_moves fun hr => releaseChannelBody_moves hr p)
  case clearFault p => exact .inr (serve_moves fun hr => clearFaultBody_moves hr p)
  case bindInput p => exact .inr (serve_moves fun hr => bindInputBody_moves hr p)
  case readInput p => exact .inr (serve_moves fun _ => reader_moves fun x => readInputBody_state x s)
  case nextCause p => exact .inr (serve_moves fun _ => reader_moves fun x => nextCauseBody_state x s)
  case nextEntryNotice p => exact .inr (serve_moves nextEntryNoticeBody_moves)
  case configureAttention p => exact .inr (serve_moves fun hr => configureAttentionBody_moves hr p)
  case takeChannelNotice p => exact .inr (serve_moves takeChannelNoticeBody_moves)
  case takeInputEvents p => exact .inr (serve_moves takeInputEventsBody_moves)
  case ackClock p => exact .inr (serve_moves ackClockBody_moves)
  case setPanelPolicy p => exact .inr (serve_moves fun hr => setPanelPolicyBody_moves hr p)
  case secondBoundary => exact .inr secondBoundary_moves
  case sweepVisit => exact .inr sweepStep_moves
  case sweepComplete => exact .inr sweepEnds_moves
  case resyncVisit => exact .inr resyncStep_moves
  case resyncComplete takes => exact .inr (resyncEnds_moves takes)
  case eventCountdownEnd i => exact .inr (eventEnds_moves i)
  case timedExpiry c src => exact .inr (timedExpires_moves c src)
  case guardExpiry c => exact .inr (guardExpiry_moves c)
  case proofTimerExpiry c => exact .inr (proofExpiry_moves c)
  case senseChange c high => exact .inr (sensePin_moves c high)
  case pulsePhaseEnd c => exact .inr (pulsePhaseEnds_moves c)
  case inputPinChange k high => exact .inr (inputPin_moves k high)
  case debounceExpiry k => exact .inr (debounceExpires_moves k)
  case irqnPulseEnd => exact .inr pulseEnds_moves
  case crystalEdge => exact .inr crystalEdge_moves
  case crystalTrusted => exact .inr crystalTrusted_moves
  case crystalGap => exact .inl .gap
  case rstnLow => exact .inl .rstnLow
  case mainResetEnd adsel => exact .inl (.rstnRises adsel)
  case vmainLost => exact .inl .vmainLost
  case vmainReturns adsel => exact .inl (.vmainReturns adsel)
  case vbakAppears => exact .inl .vbakAppears
  case vbakLost => exact .inl .vbakLost
  case csnRises => exact .inr (regainFooting_moves .main)
  case startCondition => exact .inr (regainFooting_moves .panel)

/-- What the moves and the steps of the supplies keep, every row keeps. -/
theorem exec_keeps {I : State → Prop} (hmove : ∀ {irq : Bool} {s t : State}, Move irq s t → I s → I t)
    (hsupply : ∀ {s t : State}, SupplyStep s t → I s → I t) {c : Instr} (h : exec c s = .next t) (hs : I s) : I t :=
  (exec_cases h).elim (fun hc => hsupply hc hs) fun hm => hm.keeps hmove hs

/-- An invariant of the rows, of a tick and of the queue is an invariant of every step. -/
theorem step_keeps {I : State → Prop} (hmove : ∀ {irq : Bool} {s t : State}, Move irq s t → I s → I t)
    (hsupply : ∀ {s t : State}, SupplyStep s t → I s → I t) (hqueue : ∀ (s : State) (q : List Instr), I s → I { s with pending := q })
    (htick : ∀ s : State, I s → I s.tick) (h : step s = .next t) (hs : I s) : I t := by
  unfold step at h
  split at h
  · obtain rfl := Host.Outcome.next.inj h
    rcases idleStep_cases s with ⟨-, he⟩ | ⟨-, he⟩
    · rw [he]
      exact htick s hs
    · rw [he]
      exact hqueue s _ hs
  · exact exec_keeps hmove hsupply h (hqueue s _ hs)

/-! ### What the steps of the supplies leave in the queue -/

theorem EvalStep.of_reports (l : List Chan) (s : State) : EvalStep s (l.foldl State.reportTop s) :=
  foldl_eval _ reportTop_eval l s

theorem emptyLists_eval (s : State) : EvalStep s s.emptyLists :=
  (withArbiter_eval s _).trans (EvalStep.of_reports allChannels _)

/-- The loss of the clock's validity, as an evaluation after the loss itself (R153). -/
theorem loseValidity_eval (s : State) :
    EvalStep ((s.withClock { s.clock with valid := false }).withEngine s.engine.abandon) s.loseValidity := by
  have h := (withTable_eval ((s.withClock { s.clock with valid := false }).withEngine s.engine.abandon)
    (s.table.map Slot.disarm)).trans (emptyLists_eval _)
  unfold State.loseValidity
  dsimp only
  split
  · exact h.trans (raiseInvalid_eval _)
  · exact h

theorem crystalGap_pending (s : State) : s.crystalGap.pending = s.pending := by
  unfold State.crystalGap State.leaveRunning
  split
  · rfl
  · split
    · rfl
    · split
      · split
        · exact (loseValidity_eval (s.setTimebase .failed)).pending
        · rfl
      · rfl
    · rfl
    · rfl

theorem requestResync_pending (s : State) : s.requestResync.pending = s.pending :=
  (requestResync_work s).pending

theorem restart_pending (s : State) : s.restart.pending = s.pending := by
  unfold State.restart
  split
  · exact requestResync_pending _
  · rfl

theorem powerUp_pending (s : State) (adsel : Bool) : (s.powerUp adsel).pending = s.pending := by
  unfold State.powerUp
  split
  · rfl
  · exact restart_pending _

theorem SupplyStep.pending (h : SupplyStep s t) : t.pending = s.pending := by
  cases h with
  | gap => exact crystalGap_pending s
  | rstnLow =>
    unfold State.rstnGoesLow
    dsimp only
    split <;> rfl
  | rstnRises adsel =>
    unfold State.rstnRises
    dsimp only
    split
    · exact restart_pending _
    · rfl
  | vmainLost =>
    unfold State.vmainLost
    split
    · split <;> rfl
    · rfl
    · rfl
  | vmainReturns adsel =>
    unfold State.vmainReturns
    split
    · rfl
    · exact powerUp_pending s adsel
    · exact powerUp_pending _ adsel
  | vbakAppears =>
    unfold State.vbakAppears
    dsimp only
    split <;> rfl
  | vbakLost =>
    unfold State.vbakLost
    dsimp only
    split <;> rfl

/-! ### Every row completes -/

theorem exec_total (c : Instr) (s : State) : ∃ t, exec c s = .next t := by
  cases c <;> exact ⟨_, rfl⟩

/-- Settles O3: every arm answers a next state, and neither a move nor a step of the supplies touches the queue. -/
theorem everyCommandCompletes : Obligations.EveryCommandCompletes := by
  unfold Obligations.EveryCommandCompletes
  intro c s
  obtain ⟨t, h⟩ := exec_total c s
  exact ⟨t, h, (exec_cases h).elim SupplyStep.pending Moves.pending⟩

end Sys2Proof.Machine
end

section
/-! PROOFS. What the supplies, RSTN and a crystal gap do, in the few moves of which they are made: what a main reset, a cold start,
a restart and the loss of the clock's validity leave in each field. -/

namespace Sys2Proof.Machine

variable {s t : State}

/-! ### Changes of the whole table -/

@[simp] theorem State.withTable_map_slot (s : State) (f : Slot → Slot) (i : SlotNo) :
    (s.withTable (s.table.map f)).slot i = f (s.slot i) := by
  simp [State.withTable, State.slot]

theorem Slot.disarm_none {x : Slot} (h : x.entry = none) : x.disarm = x := by
  simp [Slot.disarm, h]

theorem Slot.disarm_some {x : Slot} {e : Entry} (h : x.entry = some e) :
    x.disarm = if e.state = .active then { gen := x.gen + 1, entry := some (e.leaveActive .armed) } else x := by
  simp [Slot.disarm, h]

theorem Slot.clearHeld_none {x : Slot} (h : x.entry = none) : x.clearHeld = x := by
  simp [Slot.clearHeld, h]

theorem Slot.clearHeld_some {x : Slot} {e : Entry} (h : x.entry = some e) :
    x.clearHeld = if e.state = .active then { gen := x.gen, entry := some { e with held := false } } else x := by
  simp [Slot.clearHeld, h]

theorem Slot.markRestart_none {x : Slot} (h : x.entry = none) : x.markRestart = x := by
  simp [Slot.markRestart, h]

theorem Slot.markRestart_some {x : Slot} {e : Entry} (h : x.entry = some e) :
    x.markRestart = if e.state = .active then { gen := x.gen, entry := some { e with interrupted := true } } else x := by
  simp [Slot.markRestart, h]

theorem Slot.freeSpent_none {x : Slot} (h : x.entry = none) : x.freeSpent = x := by
  simp [Slot.freeSpent, h]

theorem Slot.freeSpent_some {x : Slot} {e : Entry} (h : x.entry = some e) :
    x.freeSpent = if e.state = .spent ∧ e.defn.autofree = true then { gen := x.gen + 1, entry := none } else x := by
  simp [Slot.freeSpent, h]

/-- `y` is the slot `x` with its entry, if that is ACTIVE, changed by `f`. -/
def Slot.ActiveBy (f : Entry → Entry) (x y : Slot) : Prop :=
  (x.entry = none → y.entry = none) ∧
    ∀ e, x.entry = some e → e.state = .active ∧ y.entry = some (f e) ∨ e.state ≠ .active ∧ y.entry = some e

theorem Slot.ActiveBy.of_eq {f : Entry → Entry} {x y : Slot} {gen : Byte} (hn : x.entry = none → y = x)
    (hs : ∀ {e}, x.entry = some e → y = if e.state = .active then { gen := gen, entry := some (f e) } else x) :
    Slot.ActiveBy f x y := by
  refine ⟨fun h => by rw [hn h, h], fun e h => ?_⟩
  rw [hs h]
  split
  · next ha => exact .inl ⟨ha, rfl⟩
  · next ha => exact .inr ⟨ha, h⟩

theorem Slot.disarm_activeBy (x : Slot) : Slot.ActiveBy (·.leaveActive .armed) x x.disarm := .of_eq disarm_none disarm_some

theorem Slot.clearHeld_activeBy (x : Slot) : Slot.ActiveBy (fun e => { e with held := false }) x x.clearHeld :=
  .of_eq clearHeld_none clearHeld_some

theorem Slot.markRestart_activeBy (x : Slot) : Slot.ActiveBy (fun e => { e with interrupted := true }) x x.markRestart :=
  .of_eq markRestart_none markRestart_some

/-- Where the changed slot holds an entry, the slot held one: that one as it was, or changed where it was ACTIVE. -/
theorem Slot.ActiveBy.cases {f : Entry → Entry} {x y : Slot} (h : Slot.ActiveBy f x y) {e' : Entry} (he : y.entry = some e') :
    ∃ e, x.entry = some e ∧ (e.state = .active ∧ e' = f e ∨ e.state ≠ .active ∧ e' = e) := by
  cases hx : x.entry with
  | none => rw [h.1 hx] at he; cases he
  | some e =>
    refine ⟨e, rfl, ?_⟩
    rcases h.2 e hx with ⟨ha, hy⟩ | ⟨ha, hy⟩ <;> rw [hy] at he <;> cases he
    · exact .inl ⟨ha, rfl⟩
    · exact .inr ⟨ha, rfl⟩

theorem Slot.freeSpent_entry {x : Slot} {e : Entry} (h : x.freeSpent.entry = some e) : x.entry = some e := by
  cases hx : x.entry with
  | none => rw [Slot.freeSpent_none hx, hx] at h; cases h
  | some e' =>
    rw [Slot.freeSpent_some hx] at h
    split at h
    · cases h
    · rw [← hx]
      exact h

/-! ### Reports -/

@[simp] theorem State.reportTop_config (s : State) (c d : Chan) : (s.reportTop c).config d = s.config d := rfl

@[simp] theorem State.reportTop_lastTop_self (s : State) (c : Chan) : (s.reportTop c).lastTop c = topOf (s.list c) := by
  simp [State.reportTop, State.lastTop]

theorem State.reportTop_lastTop_ne (s : State) {c d : Chan} (h : d ≠ c) : (s.reportTop c).lastTop d = s.lastTop d := by
  have : (c : Nat) ≠ d := fun e => h (Fin.ext e.symm)
  simp [State.reportTop, State.lastTop, this]

@[simp] theorem State.reportTop_channel_self (s : State) (c : Chan) :
    (s.reportTop c).channel c = (s.channel c).takeTarget (s.config c) (targetOf (s.config c) (topOf (s.list c))) :=
  State.channel_withChannel_self _ _ _

theorem State.reportTop_channel_ne (s : State) {c d : Chan} (h : d ≠ c) : (s.reportTop c).channel d = s.channel d :=
  State.channel_withChannel_ne _ _ h

/-- The reports of the channels of `l` that `p` picks: nothing but the tops and the channels changes, and each is told once. -/
theorem State.foldl_reports (p : Chan → Bool) {l : List Chan} (hl : l.Nodup) (s : State) :
    let t := l.foldl (fun t c => if p c then t.reportTop c else t) s
    t = { s with arbiter := { s.arbiter with lastTop := t.arbiter.lastTop }, channels := t.channels } ∧
      ∀ c : Chan, (c ∈ l → p c = true →
          t.lastTop c = topOf (s.list c) ∧
            t.channel c = (s.channel c).takeTarget (s.config c) (targetOf (s.config c) (topOf (s.list c)))) ∧
        (c ∉ l ∨ p c = false → t.lastTop c = s.lastTop c ∧ t.channel c = s.channel c) := by
  induction l generalizing s with
  | nil => exact ⟨rfl, fun c => ⟨fun h => absurd h (by simp), fun _ => ⟨rfl, rfl⟩⟩⟩
  | cons d l ih =>
    obtain ⟨hd, hl⟩ := List.nodup_cons.1 hl
    intro t
    let u := if p d then s.reportTop d else s
    have hu : u = { s with arbiter := { s.arbiter with lastTop := u.arbiter.lastTop }, channels := u.channels } := by
      simp only [u]
      split <;> rfl
    have hne : ∀ c, c ≠ d ∨ p c = false → u.lastTop c = s.lastTop c ∧ u.channel c = s.channel c := fun c hc => by
      simp only [u]
      split
      · next hp =>
        have hcd : c ≠ d := hc.elim id fun h hcd => by rw [hcd, hp] at h; cases h
        exact ⟨State.reportTop_lastTop_ne s hcd, State.reportTop_channel_ne s hcd⟩
      · exact ⟨rfl, rfl⟩
    have hself : p d = true → u.lastTop d = topOf (s.list d) ∧
        u.channel d = (s.channel d).takeTarget (s.config d) (targetOf (s.config d) (topOf (s.list d))) := fun hp => by
      simp [u, hp]
    have hul : ∀ c, u.list c = s.list c := fun c => by rw [hu]; rfl
    have huc : ∀ c, u.config c = s.config c := fun c => by rw [hu]; rfl
    obtain ⟨hk, hc⟩ := ih hl u
    have ht : t = l.foldl (fun t c => if p c then t.reportTop c else t) u := rfl
    rw [← ht] at hk hc
    refine ⟨by rw [hk, hu], fun c => ⟨fun hm hp => ?_, fun hn => ?_⟩⟩
    · rcases List.mem_cons.1 hm with rfl | hm
      · rw [((hc c).2 (.inl hd)).1, ((hc c).2 (.inl hd)).2]
        exact hself hp
      · have hcd : c ≠ d := fun h => hd (h ▸ hm)
        rw [((hc c).1 hm hp).1, ((hc c).1 hm hp).2, hul, huc, (hne c (.inl hcd)).2]
        exact ⟨rfl, rfl⟩
    · have hn' : c ∉ l ∨ p c = false := hn.imp_left fun h hm => h (List.mem_cons_of_mem _ hm)
      have hcd : c ≠ d ∨ p c = false := hn.imp_left fun h he => h (he ▸ List.mem_cons_self)
      rw [((hc c).2 hn').1, ((hc c).2 hn').2]
      exact hne c hcd

theorem mem_allChannels (c : Chan) : c ∈ allChannels := List.mem_finRange c

theorem allChannels_nodup : allChannels.Nodup := List.nodup_finRange 24

/-- The lists emptied, and every channel told that no claim stands (R110). -/
theorem State.emptyLists_eq (s : State) :
    ∃ channels : Vector ChannelRun 24,
      s.emptyLists =
          { s with
            arbiter := { lists := Vector.replicate 24 [], lastTop := Vector.replicate 24 none, changed := Vector.replicate 24 false }
            channels := channels } ∧
        ∀ c : Chan, channels[c] = (s.channel c).takeTarget (s.config c) (s.config c).fallback := by
  let u := s.withArbiter { s.arbiter with lists := Vector.replicate 24 [], changed := Vector.replicate 24 false }
  obtain ⟨hk, hc⟩ := State.foldl_reports (fun _ => true) allChannels_nodup u
  have he : s.emptyLists = allChannels.foldl (fun t c => if (fun _ : Chan => true) c = true then t.reportTop c else t) u := rfl
  rw [← he] at hk hc
  have hl : ∀ c, u.list c = [] := fun c => by simp [u, State.list]
  have htop : s.emptyLists.arbiter.lastTop = Vector.replicate 24 none := by
    ext1 n hn
    have := ((hc ⟨n, hn⟩).1 (mem_allChannels _) rfl).1
    rw [hl] at this
    simpa [State.lastTop, topOf] using this
  refine ⟨s.emptyLists.channels, ?_, fun c => ?_⟩
  · rw [htop] at hk
    exact hk
  · have := ((hc c).1 (mem_allChannels c) rfl).2
    rw [hl] at this
    exact this

/-! ### The engine and the restart -/

theorem State.requestResync_eq (s : State) : s.requestResync = s.withEngine (s.engine.resyncAt s.clock.moment) := by
  unfold State.requestResync Engine.resyncAt
  split <;> rfl

/-- The restart with the clock INVALID: SPENT autofree entries are freed, ACTIVE entries armed, INVALID raised (R182). -/
theorem State.restart_of_invalid (h : s.clock.valid = false) :
    ∃ pulse, s.restart =
      { s with
        table := (s.table.map Slot.freeSpent).map Slot.disarm
        attention := { s.attention with invalidCause := true, pulse := pulse } } := by
  refine ⟨s.restart.attention.pulse, ?_⟩
  unfold State.restart
  rw [if_neg (by simp [h])]
  rfl

/-- The restart with the clock VALID: a date change, SPENT autofree entries freed, ACTIVE entries restart-pending, a resync
(R183). -/
theorem State.restart_of_valid (h : s.clock.valid = true) :
    s.restart =
      { s with
        dates := s.dateChange.dates
        table := (s.table.map Slot.freeSpent).map Slot.markRestart
        engine := s.engine.resyncAt s.clock.moment } := by
  unfold State.restart State.restartValid
  rw [if_pos h, State.requestResync_eq]
  rfl

/-- What a restart can touch at all. -/
theorem State.restart_kept (s : State) :
    ∃ dates table engine attention,
      s.restart = { s with dates := dates, table := table, engine := engine, attention := attention } := by
  cases hv : s.clock.valid with
  | true =>
    rw [State.restart_of_valid hv]
    exact ⟨_, _, _, _, rfl⟩
  | false =>
    obtain ⟨pulse, he⟩ := State.restart_of_invalid hv
    rw [he]
    exact ⟨_, _, _, _, rfl⟩

theorem State.restart_entryNotices (s : State) : s.restart.attention.entryNotices = s.attention.entryNotices := by
  cases hv : s.clock.valid with
  | true => rw [State.restart_of_valid hv]
  | false =>
    obtain ⟨pulse, he⟩ := State.restart_of_invalid hv
    rw [he]

theorem State.restart_records (s : State) : s.restart.dates.records.Sublist s.dates.records := by
  cases hv : s.clock.valid with
  | true =>
    rw [State.restart_of_valid hv]
    exact retirePast_sublist _ _
  | false =>
    obtain ⟨pulse, he⟩ := State.restart_of_invalid hv
    rw [he]

/-- Each entry after a restart was there before: an ACTIVE one is armed or restart-pending. -/
theorem State.restart_entry {i : SlotNo} {e' : Entry} (h : (s.restart.slot i).entry = some e') :
    ∃ e, (s.slot i).entry = some e ∧
      (e.state ≠ .active ∧ e' = e ∨
        e.state = .active ∧ e' = if s.clock.valid then { e with interrupted := true } else e.leaveActive .armed) := by
  cases hv : s.clock.valid with
  | true =>
    rw [State.restart_of_valid hv] at h
    have h' : ((s.slot i).freeSpent.markRestart).entry = some e' := by simpa [State.slot] using h
    obtain ⟨e, he, hc⟩ := (Slot.markRestart_activeBy _).cases h'
    exact ⟨e, Slot.freeSpent_entry he, hc.symm⟩
  | false =>
    obtain ⟨pulse, hr⟩ := State.restart_of_invalid hv
    rw [hr] at h
    have h' : ((s.slot i).freeSpent.disarm).entry = some e' := by simpa [State.slot] using h
    obtain ⟨e, he, hc⟩ := (Slot.disarm_activeBy _).cases h'
    exact ⟨e, Slot.freeSpent_entry he, hc.symm⟩

/-! ### The loss of the clock's validity -/

/-- The loss of validity with the main supply present (R66, R110, R153). -/
theorem State.loseValidity_eq (s : State) :
    ∃ (channels : Vector ChannelRun 24) (pulse : Bool),
      s.loseValidity =
          { s with
            clock := { s.clock with valid := false }
            engine := s.engine.abandon
            table := s.table.map Slot.disarm
            arbiter := { lists := Vector.replicate 24 [], lastTop := Vector.replicate 24 none, changed := Vector.replicate 24 false }
            channels := channels
            attention := if s.running then { s.attention with invalidCause := true, pulse := pulse } else s.attention } ∧
        ∀ c : Chan, channels[c] = (s.channel c).takeTarget (s.config c) (s.config c).fallback := by
  let u := ((s.withClock { s.clock with valid := false }).withEngine s.engine.abandon).withTable (s.table.map Slot.disarm)
  obtain ⟨channels, hk, hc⟩ := u.emptyLists_eq
  have he : s.loseValidity = if u.emptyLists.running then u.emptyLists.raiseInvalid else u.emptyLists := rfl
  have hr : u.emptyLists.running = s.running := by
    rw [hk]
    rfl
  refine ⟨channels, u.emptyLists.raiseInvalid.attention.pulse, ?_, hc⟩
  rw [he, hr]
  split
  · rw [hk]
    rfl
  · exact hk

/-- A gap, where the timebase was trusted and the clock VALID, or had at most to start again. -/
theorem State.crystalGap_cases (s : State) :
    s.crystalGap = s ∨
      s.crystalGap = s.setTimebase .failed ∧ s.clock.valid = false ∨
      s.crystalGap = s.setTimebase .failed ∧ s.timebase.state = .starting ∨
      s.crystalGap = (s.setTimebase .failed).loseValidity ∧ s.supply = .normal ∧ s.clock.valid = true ∨
      s.crystalGap = (s.setTimebase .failed).loseValidityOnBackup ∧ s.supply ≠ .normal := by
  unfold State.crystalGap
  split
  · exact .inl rfl
  · split
    · next h => exact .inr (.inr (.inl ⟨rfl, h⟩))
    · unfold State.leaveRunning
      cases hv : s.clock.valid with
      | false => exact .inr (.inl ⟨if_neg (by simp [State.setTimebase, hv]), rfl⟩)
      | true =>
        rw [if_pos (show (s.setTimebase .failed).clock.valid = true from hv)]
        by_cases hn : s.supply = .normal
        · exact .inr (.inr (.inr (.inl ⟨if_pos hn, hn, rfl⟩)))
        · exact .inr (.inr (.inr (.inr ⟨if_neg hn, hn⟩)))
    · exact .inl rfl
    · exact .inl rfl

/-! ### The steps of the supplies as moves -/

/-- One of the moves of which the steps of the supplies are made. -/
inductive SupplyMove (s : State) : State → Prop where
  | pins (p : Pins) : SupplyMove s (s.withPins p)
  | failed (h : s.clock.valid = false ∨ s.timebase.state = .starting) : SupplyMove s (s.setTimebase .failed)
  | invalid (h : s.supply = .normal) : SupplyMove s (s.setTimebase .failed).loseValidity
  | invalidOnBackup (h : s.supply ≠ .normal) : SupplyMove s (s.setTimebase .failed).loseValidityOnBackup
  | switchOver : SupplyMove s { s with supply := .backup, inReset := false }.discardVolatile
  | cold (supply : Supply) : SupplyMove s (s.coldStart supply)
  | beginReset : SupplyMove s s.beginReset
  | endReset (adsel : Bool) (hn : s.supply = .normal) (hr : s.inReset = true) : SupplyMove s (s.endReset adsel)

/-- What each of these moves keeps, the steps of the supplies keep. -/
theorem SupplyStep.keeps {I : State → Prop} (hI : ∀ {s t : State}, SupplyMove s t → I s → I t) (h : SupplyStep s t) (hs : I s) :
    I t := by
  have hup : ∀ (u : State) (adsel : Bool), I u → I (u.powerUp adsel) := fun u adsel hu => by
    unfold State.powerUp
    split
    · exact hI .beginReset hu
    · exact hI (.endReset adsel rfl rfl) (hI .beginReset hu)
  cases h with
  | gap =>
    rcases s.crystalGap_cases with he | ⟨he, h⟩ | ⟨he, h⟩ | ⟨he, h, -⟩ | ⟨he, h⟩ <;> rw [he]
    · exact hs
    · exact hI (.failed (.inl h)) hs
    · exact hI (.failed (.inr h)) hs
    · exact hI (.invalid h) hs
    · exact hI (.invalidOnBackup h) hs
  | rstnLow =>
    unfold State.rstnGoesLow
    dsimp only
    split
    · exact hI .beginReset (hI (.pins _) hs)
    · exact hI (.pins _) hs
  | rstnRises adsel =>
    unfold State.rstnRises
    dsimp only
    split
    · next h =>
      obtain ⟨hn, hr⟩ := Bool.and_eq_true_iff.1 h
      exact hI (.endReset adsel (of_decide_eq_true hn) hr) (hI (.pins _) hs)
    · exact hI (.pins _) hs
  | vmainLost =>
    unfold State.vmainLost
    split
    · split
      · exact hI .switchOver hs
      · exact hI (.cold _) hs
    · exact hs
    · exact hs
  | vmainReturns adsel =>
    unfold State.vmainReturns
    split
    · exact hs
    · exact hup s adsel hs
    · exact hup _ adsel (hI (.cold _) hs)
  | vbakAppears =>
    unfold State.vbakAppears
    dsimp only
    split
    · exact hI (.cold _) (hI (.pins _) hs)
    · exact hI (.pins _) hs
  | vbakLost =>
    unfold State.vbakLost
    dsimp only
    split
    · exact hI (.cold _) (hI (.pins _) hs)
    · exact hI (.pins _) hs

/-- An invariant of the moves, of a tick and of the queue is an invariant of every step. -/
theorem step_keeps_of_moves {I : State → Prop} (hmove : ∀ {irq : Bool} {s t : State}, Move irq s t → I s → I t)
    (hsupply : ∀ {s t : State}, SupplyMove s t → I s → I t) (hqueue : ∀ (s : State) (q : List Instr), I s → I { s with pending := q })
    (htick : ∀ s : State, I s → I s.tick) (h : step s = .next t) (hs : I s) : I t :=
  step_keeps hmove (fun h => h.keeps hsupply) hqueue htick h hs

/-! ### What a main reset leaves -/

@[simp] theorem State.discardVolatile_list (s : State) (c : Chan) : s.discardVolatile.list c = [] := by
  simp [State.discardVolatile, State.list, Arbiter.reset]

@[simp] theorem State.discardVolatile_slot (s : State) (i : SlotNo) : s.discardVolatile.slot i = s.slot i := rfl

@[simp] theorem State.discardVolatile_config (s : State) (c : Chan) : s.discardVolatile.config c = s.config c := rfl

@[simp] theorem State.discardVolatile_channel (s : State) (c : Chan) :
    s.discardVolatile.channel c = ChannelRun.afterReset (s.config c) := by
  simp [State.discardVolatile, State.channel, State.config]

@[simp] theorem State.beginReset_list (s : State) (c : Chan) : s.beginReset.list c = [] :=
  State.discardVolatile_list { s with supply := .normal, inReset := true } c

@[simp] theorem State.beginReset_config (s : State) (c : Chan) : s.beginReset.config c = s.config c := rfl

@[simp] theorem State.beginReset_channel (s : State) (c : Chan) :
    s.beginReset.channel c = ChannelRun.afterReset (s.config c) :=
  State.discardVolatile_channel { s with supply := .normal, inReset := true } c

@[simp] theorem State.beginReset_slot (s : State) (i : SlotNo) : s.beginReset.slot i = (s.slot i).clearHeld :=
  State.withTable_map_slot s Slot.clearHeld i

@[simp] theorem State.coldStart_list (s : State) (x : Supply) (c : Chan) : (s.coldStart x).list c = [] := by
  unfold State.coldStart
  rw [State.discardVolatile_list]

@[simp] theorem State.coldStart_slot (s : State) (x : Supply) (i : SlotNo) : (s.coldStart x).slot i = Slot.cold := by
  simp [State.coldStart, State.slot, State.discardVolatile]

/-- The state in which the restart at the end of a main reset is taken: ADSEL and the input pins are read (R181). -/
def State.released (s : State) (adsel : Bool) : State :=
  ({ s with
      inReset := false
      inputs := s.pins.inputs.map InputRun.atLevel
      panelBus := { s.panelBus with address := panelAddress adsel } }).recomputeClass

theorem State.endReset_eq (s : State) (adsel : Bool) : s.endReset adsel = (s.released adsel).restart := rfl

/-- What the end of a main reset can touch at all. -/
theorem State.endReset_kept (s : State) (adsel : Bool) :
    ∃ inputs bus dates table engine attention, s.endReset adsel =
      { s with
        inReset := false, inputs := inputs, panelBus := bus, dates := dates, table := table, engine := engine
        attention := attention } := by
  obtain ⟨dates, table, engine, attention, h⟩ := (s.released adsel).restart_kept
  rw [State.endReset_eq, h]
  exact ⟨_, _, dates, table, engine, attention, rfl⟩

@[simp] theorem State.endReset_list (s : State) (adsel : Bool) (c : Chan) : (s.endReset adsel).list c = s.list c := by
  obtain ⟨_, _, _, _, _, _, h⟩ := s.endReset_kept adsel
  rw [h]
  rfl

@[simp] theorem State.endReset_config (s : State) (adsel : Bool) (c : Chan) : (s.endReset adsel).config c = s.config c := by
  obtain ⟨_, _, _, _, _, _, h⟩ := s.endReset_kept adsel
  rw [h]
  rfl

@[simp] theorem State.endReset_channel (s : State) (adsel : Bool) (c : Chan) : (s.endReset adsel).channel c = s.channel c := by
  obtain ⟨_, _, _, _, _, _, h⟩ := s.endReset_kept adsel
  rw [h]
  rfl

theorem State.endReset_entry {adsel : Bool} {i : SlotNo} {e' : Entry} (h : ((s.endReset adsel).slot i).entry = some e') :
    ∃ e, (s.slot i).entry = some e ∧
      (e.state ≠ .active ∧ e' = e ∨
        e.state = .active ∧ e' = if s.clock.valid then { e with interrupted := true } else e.leaveActive .armed) :=
  State.restart_entry (s := s.released adsel) h

end Sys2Proof.Machine
end

section
/-! PROOFS. The claim lists keep their form in every step (R92, R94 to R98). -/

namespace Sys2Proof.Machine

/-! ### The order of claims (R94) -/

theorem Claim.standsBefore_iff {a c : Claim} :
    a.standsBefore c = true ↔ c.priority < a.priority ∨ c.priority = a.priority ∧ c.order < a.order := by
  simp [Claim.standsBefore]

theorem Claim.standsBefore_trans {a c d : Claim} (h : a.standsBefore c = true) (k : c.standsBefore d = true) :
    a.standsBefore d = true := by
  rw [Claim.standsBefore_iff] at *
  omega

/-- Of two claims of different placement orders one stands before the other. -/
theorem Claim.standsBefore_total {a c : Claim} (h : ¬a.standsBefore c = true) (ho : a.order ≠ c.order) :
    c.standsBefore a = true := by
  rw [Claim.standsBefore_iff] at *
  omega

theorem insertClaim_ordered {c : Claim} {l : List Claim} (h : l.Pairwise fun a d => a.standsBefore d = true)
    (ho : ∀ d ∈ l, c.order ≠ d.order) : (insertClaim c l).Pairwise fun a d => a.standsBefore d = true := by
  induction l with
  | nil => simp [insertClaim]
  | cons d ds ih =>
    obtain ⟨hd, hds⟩ := List.pairwise_cons.1 h
    unfold insertClaim
    split
    · next hb =>
      refine List.pairwise_cons.2 ⟨fun x hx => ?_, h⟩
      rcases List.mem_cons.1 hx with rfl | hx
      · exact hb
      · exact Claim.standsBefore_trans hb (hd x hx)
    · next hb =>
      refine List.pairwise_cons.2 ⟨fun x hx => ?_, ih hds fun x hx => ho x (List.mem_cons_of_mem _ hx)⟩
      rcases mem_insertClaim.1 hx with rfl | hx
      · exact Claim.standsBefore_total hb (ho d (by simp))
      · exact hd x hx

/-! ### Sound lists -/

/-- What a sound list is but for its length. -/
def ListOrdered (l : List Claim) : Prop :=
  (l.map Claim.source).Nodup ∧ (l.map Claim.order).Nodup ∧ l.Pairwise fun a d => a.standsBefore d = true

theorem ListOrdered.sublist {l l' : List Claim} (h : ListOrdered l) (hs : l'.Sublist l) : ListOrdered l' :=
  ⟨h.1.sublist (hs.map _), h.2.1.sublist (hs.map _), h.2.2.sublist hs⟩

theorem ListSound.sublist {l l' : List Claim} (h : ListSound l) (hs : l'.Sublist l) : ListSound l' :=
  ⟨hs.length_le.trans h.1, ListOrdered.sublist h.2 hs⟩

theorem listSound_nil : ListSound [] := ⟨by decide, by simp, by simp, by simp⟩

theorem insertClaim_listOrdered {c : Claim} {l : List Claim} (h : ListOrdered l) (hs : ∀ d ∈ l, d.source ≠ c.source)
    (ho : ∀ d ∈ l, c.order ≠ d.order) : ListOrdered (insertClaim c l) := by
  have hp := insertClaim_perm c l
  refine ⟨(hp.map _).nodup_iff.2 ?_, (hp.map _).nodup_iff.2 ?_, insertClaim_ordered h.2.2 ho⟩
  · refine List.nodup_cons.2 ⟨fun hm => ?_, h.1⟩
    obtain ⟨d, hd, he⟩ := List.mem_map.1 hm
    exact hs d hd he
  · refine List.nodup_cons.2 ⟨fun hm => ?_, h.2.1⟩
    obtain ⟨d, hd, he⟩ := List.mem_map.1 hm
    exact ho d hd he.symm

theorem insertNewest_listOrdered {l : List Claim} (h : ListOrdered l) (c : Claim) : ListOrdered (insertNewest l c) := by
  refine insertClaim_listOrdered (h.sublist (clearedFor_sublist l c.source)) (fun d hd => (mem_clearedFor hd).2) fun d hd => ?_
  exact Nat.ne_of_gt (order_lt_nextOrder (mem_clearedFor hd).1)

/-- Nine claims without the last are at most eight. -/
theorem insertNewest_dropLast_listSound {l : List Claim} (h : ListSound l) (c : Claim) : ListSound (insertNewest l c).dropLast := by
  refine ⟨?_, ListOrdered.sublist (insertNewest_listOrdered h.2 c) (List.dropLast_sublist _)⟩
  have hl := length_insertNewest_le l c
  have hc := h.1
  rw [List.length_dropLast]
  omega

theorem placeInList_listSound {l : List Claim} (h : ListSound l) (c : Claim) : ListSound (placeInList l c).list := by
  unfold placeInList
  split
  · next hl => exact ⟨hl, insertNewest_listOrdered h.2 c⟩
  · have hd := insertNewest_dropLast_listSound h c
    rcases overflowList_cases l (insertNewest l c) c.source with ⟨hn, he⟩ | ⟨last, -, ⟨-, he⟩ | ⟨-, -, he⟩ | ⟨-, -, he⟩⟩ <;> rw [he]
    · rw [hn]
      exact listSound_nil
    · exact h
    · exact hd.sublist List.filter_sublist
    · exact hd

theorem claimOf_eq_some {l : List Claim} {src : Source} {c : Claim} (h : claimOf l src = some c) : c ∈ l ∧ c.source = src :=
  ⟨List.mem_of_find?_eq_some h, by simpa using List.find?_some h⟩

theorem ListOrdered.eq_of_order {l : List Claim} (h : ListOrdered l) {a c : Claim} (ha : a ∈ l) (hc : c ∈ l)
    (hs : a.order = c.order) : a = c :=
  List.inj_on_of_nodup_map h.2.1 ha hc hs

theorem updateInList_listSound {l : List Claim} (h : ListSound l) (src : Source) (priority : Nat) (action : Action) :
    ListSound (updateInList l src priority action) := by
  unfold updateInList
  split
  · exact h
  · next c hc =>
    obtain ⟨hm, rfl⟩ := claimOf_eq_some hc
    refine ⟨?_, insertClaim_listOrdered (ListOrdered.sublist h.2 (dropSource_sublist l _)) (fun d hd => ?_) fun d hd => ?_⟩
    · have hlt : (dropSource l c.source).length < l.length :=
        List.length_filter_lt_length_iff_exists.2 ⟨c, hm, by simp⟩
      rw [length_insertClaim]
      exact hlt.trans_le h.1
    · exact (mem_dropSource.1 hd).2
    · intro ho
      obtain ⟨hd, hs⟩ := mem_dropSource.1 hd
      exact hs (ListOrdered.eq_of_order h.2 hd hm ho.symm ▸ rfl)

@[simp] theorem Claim.countSecond_source (c : Claim) : c.countSecond.source = c.source := by
  unfold Claim.countSecond
  split <;> rfl

@[simp] theorem Claim.countSecond_order (c : Claim) : c.countSecond.order = c.order := by
  unfold Claim.countSecond
  split <;> rfl

@[simp] theorem Claim.countSecond_priority (c : Claim) : c.countSecond.priority = c.priority := by
  unfold Claim.countSecond
  split <;> rfl

@[simp] theorem Claim.countSecond_action (c : Claim) : c.countSecond.action = c.action := by
  unfold Claim.countSecond
  split <;> rfl

theorem countSecond_listSound {l : List Claim} (h : ListSound l) : ListSound (l.map Claim.countSecond) := by
  obtain ⟨hl, hs, ho, hp⟩ := h
  refine ⟨by rw [List.length_map]; exact hl, ?_, ?_, ?_⟩
  · rw [List.map_map]
    exact (List.map_congr_left fun c _ => Claim.countSecond_source c) ▸ hs
  · rw [List.map_map]
    exact (List.map_congr_left fun c _ => Claim.countSecond_order c) ▸ ho
  · refine List.pairwise_map.2 (hp.imp fun {a d} had => ?_)
    rw [Claim.standsBefore_iff] at had ⊢
    simpa using had

/-! ### What a move does to one list -/

/-- What a step may make of a list. -/
inductive ListStep (l : List Claim) : List Claim → Prop where
  | same : ListStep l l
  | place (c : Claim) : ListStep l (placeInList l c).list
  | remove (src : Source) : ListStep l (removeFromList l src)
  | update (src : Source) (priority : Nat) (action : Action) : ListStep l (updateInList l src priority action)
  | seconds : ListStep l (l.map Claim.countSecond)

theorem ListStep.sound {l l' : List Claim} (h : ListStep l l') (hs : ListSound l) : ListSound l' := by
  cases h with
  | same => exact hs
  | place c => exact placeInList_listSound hs c
  | remove src => exact hs.sublist (removeFromList_sublist l src)
  | update src priority action => exact updateInList_listSound hs src priority action
  | seconds => exact countSecond_listSound hs

@[simp] theorem State.freeSlot_list (s : State) (i : SlotNo) (c : Chan) : (s.freeSlot i).list c = s.list c := rfl

@[simp] theorem State.countSeconds_list (s : State) (c : Chan) : s.countSeconds.list c = (s.list c).map Claim.countSecond := by
  simp [State.countSeconds, State.list]

/-- A list set on one channel, as a step of every list. -/
theorem setList_listStep {s : State} {c : Chan} {l : List Claim} (h : ListStep (s.list c) l) (d : Chan) :
    ListStep (s.list d) ((s.setList c l).list d) := by
  by_cases hd : d = c
  · subst hd
    rw [State.setList_list_self]
    exact h
  · rw [State.setList_list_ne s l hd]
    exact .same

theorem withdrawEntryClaim_listStep (s : State) (i : SlotNo) (c : Chan) :
    ListStep (s.list c) ((s.withdrawEntryClaim i).list c) := by
  unfold State.withdrawEntryClaim
  split
  · exact .same
  · split
    · exact setList_listStep (.remove _) c
    · exact .same

theorem place_listStep (s : State) (c : Chan) (k : Claim) (d : Chan) : ListStep (s.list d) ((s.place c k).list d) := by
  obtain ⟨hl, -, ho, -⟩ := s.place_placesClaim c k
  by_cases hd : d = c
  · subst hd
    rw [hl]
    exact .place k
  · rw [(ho.2 d hd).1]
    exact .same

theorem placeEntryClaim_listStep {s : State} {i : SlotNo} {e : Entry} (h : (s.slot i).entry = some e) (d : Chan) :
    ListStep (s.list d) ((s.placeEntryClaim i).list d) := by
  obtain ⟨⟨-, -, hk, hn, -, -, -, ho, -⟩, -⟩ := State.placeEntryClaim_places h
  by_cases hd : d = e.defn.channel
  · subst hd
    cases hp : (placeInList (s.list e.defn.channel) (entryClaim i e.defn)).kept with
    | true =>
      rw [(hk hp).1]
      exact .place _
    | false =>
      rw [(hn hp).1]
      exact .same
  · rw [(ho.2 d hd).1]
    exact .same

theorem Move.listStep {b : Bool} {s t : State} (h : Move b s t) (c : Chan) : ListStep (s.list c) (t.list c) := by
  cases h with
  | place d k _ _ _ _ => exact place_listStep s d k c
  | remove d src _ _ => exact setList_listStep (.remove src) c
  | seconds _ =>
    rw [State.countSeconds_list]
    exact .seconds
  | delete i _ => exact withdrawEntryClaim_listStep s i c
  | withdraw i e e' gen _ _ _ _ => exact withdrawEntryClaim_listStep s i c
  | enter i e e' gen _ _ _ _ _ _ =>
    exact placeEntryClaim_listStep (s := s.withSlot i { gen := gen, entry := some e' }) (e := e') (by simp) c
  | update i e d gen _ _ _ _ _ => exact setList_listStep (s := s.withSlot i _) (.update ..) c
  | _ => exact .same

/-! ### Every step -/

theorem SupplyMove.list {s t : State} (h : SupplyMove s t) (c : Chan) : t.list c = s.list c ∨ t.list c = [] := by
  cases h with
  | invalid _ =>
    obtain ⟨channels, pulse, he, -⟩ := (s.setTimebase .failed).loseValidity_eq
    rw [he]
    exact .inr (by simp [State.list])
  | switchOver => exact .inr (State.discardVolatile_list _ c)
  | cold x => exact .inr (State.coldStart_list s x c)
  | beginReset => exact .inr (State.beginReset_list s c)
  | endReset adsel _ _ => exact .inl (State.endReset_list s adsel c)
  | _ => exact .inl rfl

theorem State.tick_list (s : State) (c : Chan) : s.tick.list c = s.list c := by
  obtain ⟨_, _, _, h, -⟩ := tick_touches s
  rw [h]
  rfl

/-- Settles O53: a move makes of each list one of a few sound ones, and the supplies leave it or empty it. -/
theorem stepKeepsListsSound : Obligations.StepKeepsListsSound := by
  unfold Obligations.StepKeepsListsSound
  intro s t hs h
  refine step_keeps_of_moves (I := State.ListsSound) (fun hm hs c => (hm.listStep c).sound (hs c)) (fun hm hs c => ?_)
    (fun _ _ hs => hs) (fun s hs c => ?_) h hs
  · rcases hm.list c with he | he <;> rw [he]
    · exact hs c
    · exact listSound_nil
  · rw [State.tick_list]
    exact hs c

end Sys2Proof.Machine
end

section
/-! PROOFS. Every step keeps the date set in order and a RUNNING timebase behind a VALID clock (R26, R148, R158). -/

namespace Sys2Proof.Machine

variable {s t : State}

/-- The date set and the clock are sound. -/
def State.CalendarSound (s : State) : Prop := s.DatesSound ∧ s.ClockSound

theorem EvalStep.calendarSound (h : EvalStep s t) (hs : s.CalendarSound) : t.CalendarSound := by
  obtain ⟨_, _, _, _, rfl⟩ := h
  exact hs

theorem Move.calendarSound {b : Bool} (h : Move b s t) (hs : s.CalendarSound) : t.CalendarSound := by
  cases h with
  | outside pins tb ck _ hc => exact ⟨hs.1, hc hs.2⟩
  | dates d hd => exact ⟨hd hs.1, hs.2⟩
  | place c k => exact (place_eval s c k).calendarSound hs
  | remove c src => exact (remove_eval s c src).calendarSound hs
  | delete i => exact (deleteSlot_eval s i).calendarSound hs
  | withdraw i e e' gen => exact ((withdrawEntryClaim_eval s i).trans (withSlot_eval _ i _)).calendarSound hs
  | enter i e e' gen => exact ((withSlot_eval s i _).trans (placeEntryClaim_eval _ i)).calendarSound hs
  | update i e d gen => exact ((withSlot_eval s i _).trans (setList_eval _ _ _)).calendarSound hs
  | _ => exact hs

theorem DateSet.cold_sound (s : State) (h : s.dates = DateSet.cold) : s.DatesSound := by
  unfold State.DatesSound
  rw [h]
  exact ⟨Nat.zero_le _, List.Pairwise.nil, fun r hr => absurd hr List.not_mem_nil⟩

theorem State.ClockSound.of_invalid (h : s.clock.valid = false) : s.ClockSound := fun hv => by
  rw [h] at hv
  cases hv

theorem SupplyMove.calendarSound (h : SupplyMove s t) (hs : s.CalendarSound) : t.CalendarSound := by
  obtain ⟨hd, hc⟩ := hs
  cases h with
  | pins p => exact ⟨hd, hc⟩
  | failed h =>
    refine ⟨hd, fun hv => ?_⟩
    have hrun := hc hv
    rcases h with h | h
    · rw [show s.clock.valid = true from hv] at h
      cases h
    · rw [h] at hrun
      cases hrun
  | invalid _ =>
    obtain ⟨channels, pulse, he, -⟩ := (s.setTimebase .failed).loseValidity_eq
    rw [he]
    exact ⟨hd, .of_invalid rfl⟩
  | invalidOnBackup _ => exact ⟨hd, .of_invalid rfl⟩
  | switchOver => exact ⟨hd, hc⟩
  | cold x => exact ⟨DateSet.cold_sound _ rfl, .of_invalid rfl⟩
  | beginReset => exact ⟨hd, hc⟩
  | endReset adsel _ _ =>
    obtain ⟨inputs, bus, dates, table, engine, attention, he⟩ := s.endReset_kept adsel
    refine ⟨State.DatesSound.of_sublist (s := s.released adsel) hd (s.released adsel).restart_records, ?_⟩
    rw [he]
    exact hc

theorem State.tick_calendarSound (hs : s.CalendarSound) : s.tick.CalendarSound := by
  obtain ⟨tb, ch, inp, he, ht⟩ := tick_touches s
  rw [he]
  exact ⟨hs.1, fun hv => ht.trans (hs.2 hv)⟩

/-- Settles O54: the set changes by sound insertions and by removals alone, and nothing but SET_CLOCK makes a clock VALID. -/
theorem stepKeepsDatesAndClockSound : Obligations.StepKeepsDatesAndClockSound := by
  unfold Obligations.StepKeepsDatesAndClockSound
  intro s t hd hc h
  exact step_keeps_of_moves (I := State.CalendarSound) (fun hm => hm.calendarSound) (fun hm => hm.calendarSound)
    (fun _ _ hs => hs) (fun _ hs => State.tick_calendarSound hs) h ⟨hd, hc⟩

/-! ### Channels -/

/-- A step that leaves the settings and makes of each channel what the output stage takes as a target. -/
theorem State.ChannelsSound.of_follows {c : Chan} (hs : s.ChannelsSound) (hf : s.followsList t c) (ho : s.onlyChannel t c) :
    t.ChannelsSound := by
  intro d
  have hcfg : t.config d = s.config d := by
    unfold State.config
    rw [ho.1]
  rw [hcfg]
  by_cases hd : d = c
  · subst hd
    unfold State.followsList at hf
    split at hf
    · rw [hf.2.1]
      exact hs d
    · rw [hf.2.2]
      split
      · exact hs d
      · rw [← ChannelRun.takeTarget_eq_told]
        exact ChannelRun.takeTarget_sound (hs d) _
  · rw [(ho.2 d hd).2.2.1]
    exact hs d

theorem State.setList_channelsSound (hs : s.ChannelsSound) (c : Chan) (l : List Claim) : (s.setList c l).ChannelsSound :=
  hs.of_follows (s.setList_follows c l) (s.setList_onlyChannel c l)

theorem State.withdrawEntryClaim_channelsSound (hs : s.ChannelsSound) (i : SlotNo) : (s.withdrawEntryClaim i).ChannelsSound := by
  unfold State.withdrawEntryClaim
  split
  · exact hs
  · split
    · exact State.setList_channelsSound hs _ _
    · exact hs

theorem State.placeEntryClaim_channelsSound {i : SlotNo} {e : Entry} (he : (s.slot i).entry = some e) (hs : s.ChannelsSound) :
    (s.placeEntryClaim i).ChannelsSound := by
  obtain ⟨⟨-, -, hk, hn, -, -, -, ho, -⟩, -⟩ := State.placeEntryClaim_places he
  cases hp : (placeInList (s.list e.defn.channel) (entryClaim i e.defn)).kept with
  | true => exact hs.of_follows (hk hp).2 ho
  | false =>
    intro d
    have hcfg : (s.placeEntryClaim i).config d = s.config d := by
      unfold State.config
      rw [ho.1]
    rw [hcfg]
    by_cases hd : d = e.defn.channel
    · subst hd
      rw [(hn hp).2.2.1]
      exact hs _
    · rw [(ho.2 d hd).2.2.1]
      exact hs d

theorem Move.channelsSound {b : Bool} (h : Move b s t) (hs : s.ChannelsSound) : t.ChannelsSound := by
  cases h with
  | place c k =>
    obtain ⟨-, hf, ho, -⟩ := s.place_placesClaim c k
    exact hs.of_follows hf ho
  | remove c src => exact State.setList_channelsSound hs _ _
  | report c =>
    intro d
    rw [State.reportTop_config]
    by_cases hd : d = c
    · subst hd
      rw [State.reportTop_channel_self]
      exact ChannelRun.takeTarget_sound (hs d) _
    · rw [State.reportTop_channel_ne s hd]
      exact hs d
  | channel c cfg run _ hc =>
    intro d
    by_cases hd : d = c
    · subst hd
      have : ((s.withConfig d cfg).withChannel d run).config d = cfg := State.config_withConfig_self s d cfg
      rw [this, State.channel_withChannel_self]
      exact hc (hs d)
    · have hcfg : ((s.withConfig c cfg).withChannel c run).config d = s.config d := State.config_withConfig_ne s cfg hd
      rw [hcfg, State.channel_withChannel_ne _ _ hd]
      exact hs d
  | delete i => exact State.withdrawEntryClaim_channelsSound hs i
  | withdraw i e e' gen => exact State.withdrawEntryClaim_channelsSound hs i
  | enter i e e' gen =>
    exact State.placeEntryClaim_channelsSound (s := s.withSlot i { gen := gen, entry := some e' }) (e := e') (by simp) hs
  | update i e d gen => exact State.setList_channelsSound (s := s.withSlot i _) hs _ _
  | _ => exact hs

theorem SupplyMove.channelsSound (h : SupplyMove s t) (hs : s.ChannelsSound) : t.ChannelsSound := by
  have hreset : ∀ u : State, u.discardVolatile.ChannelsSound := fun u c => by
    rw [State.discardVolatile_channel]
    exact ChannelRun.afterReset_sound _
  cases h with
  | invalid _ =>
    obtain ⟨channels, pulse, he, hc⟩ := (s.setTimebase .failed).loseValidity_eq
    rw [he]
    intro c
    have : channels[c] = (s.channel c).takeTarget (s.config c) (s.config c).fallback := hc c
    unfold State.channel
    rw [this]
    exact ChannelRun.takeTarget_sound (hs c) _
  | switchOver => exact hreset _
  | cold x => exact hreset _
  | beginReset => exact hreset _
  | endReset adsel _ _ =>
    intro c
    rw [State.endReset_config, State.endReset_channel]
    exact hs c
  | _ => exact hs

theorem State.tick_channelsSound (hs : s.ChannelsSound) : s.tick.ChannelsSound := by
  unfold State.tick
  split
  · exact hs
  · dsimp only
    split
    · intro c
      have := ChannelRun.tick_sound (hs c) (decide (9 ≤ s.timebase.tickPhase))
      simpa [State.channel, State.config] using this
    · exact hs

/-- Settles O55: every channel changes by the few transitions of the output stage, each of which keeps it sound. -/
theorem stepKeepsChannelsSound : Obligations.StepKeepsChannelsSound := by
  unfold Obligations.StepKeepsChannelsSound
  intro s t hs h
  exact step_keeps_of_moves (I := State.ChannelsSound) (fun hm => hm.channelsSound) (fun hm => hm.channelsSound)
    (fun _ _ hs => hs) (fun _ hs => State.tick_channelsSound hs) h hs

end Sys2Proof.Machine
end

section
/-! PROOFS. What becomes of the entry of one slot: every step keeps the entries in their ranges and the slots that a wipe has passed
EMPTY (R2 to R11, R45, R65, R88). -/

namespace Sys2Proof.Machine

variable {s t : State} {b : Bool}

/-! ### What a move does to one slot -/

/-- What a move from `s` may make of the entry `x` of a slot. -/
inductive SlotStep (s : State) : Option Entry → Option Entry → Prop where
  | same (x : Option Entry) : SlotStep s x x
  | gone (x : Option Entry) : SlotStep s x none
  | made (e : Entry) (hw : s.engine.wipe = none) (hs : e.sound) (ha : e.state ≠ .active) : SlotStep s none (some e)
  | changed (e e' : Entry) (hs : e.sound → e'.sound) (ha : e'.state = .active → s.Awake ∨ e.state = .active) :
      SlotStep s (some e) (some e')

/-- An entry that loses held to a displacement. -/
theorem Entry.sound_of_displaced {e : Entry} (h : e.sound) : ({ e with held := false } : Entry).sound := by
  obtain ⟨hd, hb, hr, hs, hc, hm⟩ := h
  exact ⟨hd, hb, hr, hs, fun ha => ⟨rfl, (hc ha).2⟩, hm⟩

theorem State.entryDisplaced.slotStep {j : SlotNo} (h : s.entryDisplaced t j) (u : State) :
    SlotStep u (s.slot j).entry (t.slot j).entry := by
  cases he : (s.slot j).entry with
  | none =>
    rw [(h.1 he).1, he]
    exact .same none
  | some e =>
    rw [(h.2 e he).1]
    exact .changed e _ Entry.sound_of_displaced fun ha => .inr ha

theorem setSlot_slotStep {i : SlotNo} {x : Slot} (h : SlotStep s (s.slot i).entry x.entry) (ht : ∀ j, t.slot j = (s.withSlot i x).slot j)
    (j : SlotNo) : SlotStep s (s.slot j).entry (t.slot j).entry := by
  rw [ht]
  by_cases hj : j = i
  · subst hj
    rw [State.slot_withSlot_self]
    exact h
  · rw [State.slot_withSlot_ne s x hj]
    exact .same _

theorem place_slotStep (s : State) (c : Chan) (k : Claim) (j : SlotNo) : SlotStep s (s.slot j).entry ((s.place c k).slot j).entry := by
  have hp := s.place_placesClaim c k
  by_cases hj : s.pushesOut c k (.entry j)
  · obtain ⟨-, -, -, -, hd, -⟩ := hp
    exact (hd j hj).1.slotStep s
  · rw [(State.placesClaim_others hp hj).1]
    exact .same _

theorem Slot.countSecond_none {x : Slot} (h : x.entry = none) : x.countSecond = x := by
  simp [Slot.countSecond, h]

theorem Slot.countSecond_some {x : Slot} {e : Entry} (h : x.entry = some e) :
    x.countSecond = if e.counts then { x with entry := some { e with remSeconds := e.remSeconds - 1 } } else x := by
  simp [Slot.countSecond, h]

@[simp] theorem State.countSeconds_slot (s : State) (i : SlotNo) : s.countSeconds.slot i = (s.slot i).countSecond :=
  State.withTable_map_slot s Slot.countSecond i

theorem Entry.active_of_counts {e : Entry} (h : e.counts = true) : e.state = .active := by
  simp only [Entry.counts, Bool.and_eq_true, decide_eq_true_eq] at h
  exact h.1.1

theorem countSecond_slotStep (s : State) (x : Slot) : SlotStep s x.entry x.countSecond.entry := by
  cases h : x.entry with
  | none =>
    rw [Slot.countSecond_none h, h]
    exact .same none
  | some e =>
    rw [Slot.countSecond_some h]
    split
    · next hc =>
      have ha := Entry.active_of_counts hc
      refine .changed e _ (fun hs => ?_) fun _ => .inr ha
      have hm := hs.2.2.2.2.2 ha
      exact Entry.sound_of_active (e := e) rfl rfl ((Nat.sub_le _ _).trans hs.2.2.2.1) hm ha hs
    · rw [h]
      exact .same _

theorem enter_slotStep {i : SlotNo} {e e' : Entry} {gen : Byte} (hv : s.Awake) (he : (s.slot i).entry = some e)
    (ha : e'.state = .active) (hs : e.sound → e'.sound) (j : SlotNo) :
    SlotStep s (s.slot j).entry (((s.withSlot i { gen := gen, entry := some e' }).placeEntryClaim i).slot j).entry := by
  obtain ⟨⟨hself, -, -, -, hothers, -⟩, -⟩ :=
    State.placeEntryClaim_places (s := s.withSlot i { gen := gen, entry := some e' }) (i := i) (e := e') (by simp)
  by_cases hj : j = i
  · subst hj
    rw [hself, he]
    refine .changed e _ (fun h => ?_) fun _ => .inl hv
    obtain ⟨hd, hb, hr, hc, -, hm⟩ := hs h
    exact ⟨hd, hb, hr, hc, fun hx => absurd ha hx, hm⟩
  · have hsl : (s.withSlot i { gen := gen, entry := some e' }).slot j = s.slot j := State.slot_withSlot_ne s _ hj
    by_cases hp : (s.withSlot i { gen := gen, entry := some e' }).pushesOut e'.defn.channel (entryClaim i e'.defn) (.entry j)
    · rw [← hsl]
      exact ((hothers j hj).1 hp).slotStep s
    · rw [((hothers j hj).2 hp).1, hsl]
      exact .same _

theorem State.withSlot_slot_congr {u : State} (h : ∀ k, u.slot k = s.slot k) (i : SlotNo) (x : Slot) (k : SlotNo) :
    (u.withSlot i x).slot k = (s.withSlot i x).slot k := by
  by_cases hk : k = i
  · subst hk
    rw [State.slot_withSlot_self, State.slot_withSlot_self]
  · rw [State.slot_withSlot_ne u x hk, State.slot_withSlot_ne s x hk, h]

theorem Move.slotStep (h : Move b s t) (j : SlotNo) : SlotStep s (s.slot j).entry (t.slot j).entry := by
  cases h with
  | place c k => exact place_slotStep s c k j
  | remove c src =>
    rw [show s.remove c src = s.setList c _ from rfl, State.setList_slot]
    exact .same _
  | seconds =>
    rw [State.countSeconds_slot]
    exact countSecond_slotStep s _
  | rewrite i e e' gen _ he hs ha => exact setSlot_slotStep (he ▸ .changed e e' hs ha) (fun _ => rfl) j
  | add i e gen _ he hw hs ha => exact setSlot_slotStep (he ▸ .made e hw hs ha) (fun _ => rfl) j
  | free i => exact setSlot_slotStep (.gone _) (fun _ => rfl) j
  | delete i =>
    exact setSlot_slotStep (i := i) (x := { gen := ((s.withdrawEntryClaim i).slot i).gen + 1, entry := none }) (.gone _)
      (State.withSlot_slot_congr (s.withdrawEntryClaim_slot i) i _) j
  | withdraw i e e' gen _ he hs ha =>
    exact setSlot_slotStep (i := i) (x := { gen := gen, entry := some e' }) (he ▸ .changed e e' hs fun h => absurd h ha)
      (State.withSlot_slot_congr (s.withdrawEntryClaim_slot i) i _) j
  | enter i e e' gen _ hv he _ ha hs => exact enter_slotStep hv he ha hs j
  | update i e d gen _ he hst hs =>
    exact setSlot_slotStep (i := i) (x := { gen := gen, entry := some { e with defn := d } }) (he ▸ .changed e _ hs fun _ => .inr hst.1)
      (fun k => State.setList_slot _ _ _ k) j
  | _ => exact .same _

/-! ### Entries in their ranges -/

theorem SlotStep.sound {x x' : Option Entry} (h : SlotStep s x x') (hs : ∀ e, x = some e → e.sound) {e' : Entry}
    (he : x' = some e') : e'.sound := by
  cases h with
  | same => exact hs e' he
  | gone => cases he
  | made e _ hm _ =>
    cases he
    exact hm
  | changed e e'' hc _ =>
    cases he
    exact hc (hs e rfl)

theorem Slot.ActiveBy.sound {f : Entry → Entry} {x y : Slot} (h : Slot.ActiveBy f x y)
    (hf : ∀ e : Entry, e.state = .active → e.sound → (f e).sound) (hs : ∀ e, x.entry = some e → e.sound) {e' : Entry}
    (he : y.entry = some e') : e'.sound := by
  obtain ⟨e, hx, ⟨ha, rfl⟩ | ⟨-, rfl⟩⟩ := h.cases he
  · exact hf e ha (hs e hx)
  · exact hs _ hx

theorem SupplyMove.entriesSound (h : SupplyMove s t) (hs : s.EntriesSound) : t.EntriesSound := by
  cases h with
  | invalid _ =>
    obtain ⟨channels, pulse, he, -⟩ := (s.setTimebase .failed).loseValidity_eq
    rw [he]
    intro i e hi
    have hi' : (s.slot i).disarm.entry = some e := by simpa [State.slot, State.setTimebase] using hi
    exact (Slot.disarm_activeBy _).sound (fun e _ h => Entry.leaveActive_sound (by simp) h) (hs i) hi'
  | cold x =>
    intro i e hi
    rw [State.coldStart_slot] at hi
    cases hi
  | beginReset =>
    intro i e hi
    rw [State.beginReset_slot] at hi
    exact (Slot.clearHeld_activeBy _).sound (fun e _ h => Entry.sound_of_displaced h) (hs i) hi
  | endReset adsel _ _ =>
    intro i e' hi
    obtain ⟨e, he, ⟨-, rfl⟩ | ⟨-, rfl⟩⟩ := State.endReset_entry hi
    · exact hs i _ he
    · split
      · exact Entry.sound_of_same (e := e) rfl rfl rfl rfl rfl rfl rfl rfl (hs i e he)
      · exact Entry.leaveActive_sound (by simp) (hs i e he)
  | _ => exact hs

@[simp] theorem State.tick_slot (s : State) (i : SlotNo) : s.tick.slot i = s.slot i := by
  obtain ⟨_, _, _, h, -⟩ := tick_touches s
  rw [h]
  rfl

/-- Settles O56: each slot keeps its entry, loses it, or takes fields that keep the entry in its ranges. -/
theorem stepKeepsEntriesSound : Obligations.StepKeepsEntriesSound := by
  unfold Obligations.StepKeepsEntriesSound
  intro s t hs h
  exact step_keeps_of_moves (I := State.EntriesSound) (fun hm hs i e he => (hm.slotStep i).sound (hs i) he)
    (fun hm => hm.entriesSound) (fun _ _ hs => hs) (fun s hs i e he => hs i e (by rw [← s.tick_slot i]; exact he)) h hs

/-! ### Wiped slots -/

theorem EvalStep.wipe (h : EvalStep s t) : t.engine.wipe = s.engine.wipe := by
  rw [h.engine]

/-- A wipe in progress is the one there was, on slots that the move leaves EMPTY, or has moved on over EMPTY slots. -/
theorem Move.wipeSound (h : Move b s t) (hs : s.WipeSound) : t.WipeSound := by
  have key : t.engine = s.engine → t.WipeSound := fun he w hw i hi => by
    rw [he] at hw
    have hn := hs w hw i hi
    have hm := h.slotStep i
    rw [hn] at hm
    generalize (t.slot i).entry = y at hm
    cases hm with
    | same => rfl
    | gone => rfl
    | made e hw' => rw [hw] at hw'; cases hw'
  cases h with
  | engine e _ _ hw =>
    intro w' hw' i hi
    rcases hw w' hw' i hi with ⟨w, hw, hlt⟩ | hn
    · exact hs w hw i hlt
    · exact hn
  | place c k => exact key (place_eval s c k).engine
  | remove c src => exact key (remove_eval s c src).engine
  | delete i => exact key (deleteSlot_eval s i).engine
  | withdraw i e e' gen => exact key ((withdrawEntryClaim_eval s i).trans (withSlot_eval _ i _)).engine
  | enter i e e' gen => exact key ((withSlot_eval s i _).trans (placeEntryClaim_eval _ i)).engine
  | update i e d gen => exact key ((withSlot_eval s i _).trans (setList_eval _ _ _)).engine
  | _ => exact key rfl

theorem Engine.resyncAt_wipe (e : Engine) (now : Moment) : (e.resyncAt now).wipe = e.wipe := by
  unfold Engine.resyncAt
  split <;> rfl

theorem State.restart_wipe (s : State) : s.restart.engine.wipe = s.engine.wipe := by
  cases hv : s.clock.valid with
  | true =>
    rw [State.restart_of_valid hv]
    exact Engine.resyncAt_wipe _ _
  | false =>
    obtain ⟨pulse, he⟩ := State.restart_of_invalid hv
    rw [he]

theorem SupplyMove.wipeSound (h : SupplyMove s t) (hs : s.WipeSound) : t.WipeSound := by
  cases h with
  | invalid _ =>
    obtain ⟨channels, pulse, he, -⟩ := (s.setTimebase .failed).loseValidity_eq
    rw [he]
    intro w hw i hi
    have hn : (s.slot i).entry = none := hs w hw i hi
    have : ((s.slot i).disarm).entry = none := by rw [Slot.disarm_none hn, hn]
    simpa [State.slot, State.setTimebase] using this
  | switchOver => exact fun w hw => absurd hw (by simp [State.discardVolatile, Engine.cold])
  | cold x => exact fun w hw => absurd hw (by simp [State.coldStart, State.discardVolatile, Engine.cold])
  | beginReset =>
    exact fun w hw => absurd hw (by simp [State.beginReset, State.discardVolatile, Engine.cold, State.recomputeClass])
  | endReset adsel _ _ =>
    intro w hw i hi
    have hw' : s.engine.wipe = some w := (s.released adsel).restart_wipe ▸ hw
    cases he : ((s.endReset adsel).slot i).entry with
    | none => rfl
    | some e' =>
      obtain ⟨e, he, -⟩ := State.endReset_entry he
      rw [hs w hw' i hi] at he
      cases he
  | _ => exact hs

theorem State.respond_table (s : State) (p : Port) (reply : Reply) : (s.respond p reply).table = s.table := by
  unfold State.respond State.setPortSlot
  split <;> simp

theorem State.afterWipe_table (s : State) : s.afterWipe.table = s.table := by
  unfold State.afterWipe
  split
  · rfl
  · split <;> rfl

/-- The completion of a wipe, before the commands that waited are taken, leaves the table as it is. -/
theorem State.completeWipe_table (s : State) : (s.completeWipe []).table = s.table := by
  unfold State.completeWipe
  split
  · split
    · rfl
    · split
      · rfl
      · exact (State.afterWipe_table _).trans (State.respond_table ..)
  · rfl

/-- Settles O60: no move fills a slot while a wipe is in progress, and the completion changes no slot. -/
theorem stepKeepsWipedSlotsEmpty : Obligations.StepKeepsWipedSlotsEmpty := by
  unfold Obligations.StepKeepsWipedSlotsEmpty
  refine ⟨fun s t hs h => ?steps, fun s t hs _ hw h i => ?completion⟩
  case steps =>
    refine step_keeps_of_moves (I := State.WipeSound) (fun hm => hm.wipeSound) (fun hm => hm.wipeSound) (fun _ _ hs => hs)
      (fun s hs w hw i hi => ?_) h hs
    obtain ⟨_, _, _, he, -⟩ := tick_touches s
    rw [State.tick_slot]
    exact hs w (by rw [he] at hw; exact hw) i hi
  case completion =>
    obtain ⟨w, hw, hc⟩ := hw
    obtain rfl := Host.Outcome.next.inj h
    have : (s.completeWipe []).slot i = s.slot i := by
      unfold State.slot
      rw [State.completeWipe_table]
    rw [this]
    exact hs w hw i (by omega)

end Sys2Proof.Machine
end

section
/-! PROOFS. Only a slot that holds an entry has notices, and a part that does not run stands at its reset values (R67, R112, R133,
R166, R176, R202). -/

namespace Sys2Proof.Machine

variable {s t : State} {b : Bool}

/-! ### Notices -/

/-- Only a slot that holds an entry is a member of the entry notice set (R166). -/
def State.Noticed (s : State) : Prop :=
  ∀ i : SlotNo, s.attention.entryNotices[i] ≠ 0 → (s.slot i).entry.isSome = true

theorem State.Noticed.of_same (hs : s.Noticed) (hn : t.attention.entryNotices = s.attention.entryNotices)
    (hf : ∀ i, (s.slot i).entry.isSome = true → (t.slot i).entry.isSome = true) : t.Noticed := fun i hi =>
  hf i (hs i (by rw [← hn]; exact hi))

theorem State.Noticed.withSlot (hs : s.Noticed) (i : SlotNo) (gen : Byte) (e : Entry) :
    (s.withSlot i { gen := gen, entry := some e }).Noticed := by
  refine hs.of_same rfl fun j hj => ?_
  by_cases hji : j = i
  · subst hji
    rw [State.slot_withSlot_self]
    rfl
  · rw [State.slot_withSlot_ne s _ hji]
    exact hj

theorem State.Noticed.freeSlot (hs : s.Noticed) (i : SlotNo) : (s.freeSlot i).Noticed := fun j hj => by
  by_cases hji : j = i
  · subst hji
    exact absurd (show (s.freeSlot j).attention.entryNotices[j] = 0 by simp [State.freeSlot, State.dropEntryNotice]) hj
  · rw [State.freeSlot_slot_ne s hji]
    refine hs j ?_
    have hne : (i : Nat) ≠ j := fun h => hji (Fin.ext h.symm)
    simpa [State.freeSlot, State.dropEntryNotice, hne] using hj

theorem State.Noticed.setList (hs : s.Noticed) (c : Chan) (l : List Claim) : (s.setList c l).Noticed := by
  rw [State.setList_kept]
  exact hs

theorem State.Noticed.withdrawEntryClaim (hs : s.Noticed) (i : SlotNo) : (s.withdrawEntryClaim i).Noticed := by
  unfold State.withdrawEntryClaim
  split
  · exact hs
  · split
    · exact hs.setList _ _
    · exact hs

/-- A displacement adds notices to a slot that holds an entry alone. -/
theorem State.entryDisplaced.noticed {j : SlotNo} (h : s.entryDisplaced t j) (hs : s.Noticed)
    (hj : t.attention.entryNotices[j] ≠ 0) : (t.slot j).entry.isSome = true := by
  cases he : (s.slot j).entry with
  | none =>
    obtain ⟨h1, h2⟩ := h.1 he
    rw [h1]
    rw [h2] at hj
    exact hs j hj
  | some e =>
    rw [(h.2 e he).1]
    rfl

theorem State.Noticed.place (hs : s.Noticed) (c : Chan) (k : Claim) : (s.place c k).Noticed := fun j hj => by
  have hp := s.place_placesClaim c k
  by_cases hd : s.pushesOut c k (.entry j)
  · obtain ⟨-, -, -, -, hx, -⟩ := hp
    exact (hx j hd).1.noticed hs hj
  · obtain ⟨h1, h2⟩ := State.placesClaim_others hp hd
    rw [h1]
    rw [h2] at hj
    exact hs j hj

theorem State.Noticed.placeEntryClaim (hs : s.Noticed) {i : SlotNo} {e : Entry} (he : (s.slot i).entry = some e) :
    (s.placeEntryClaim i).Noticed := fun j hj => by
  obtain ⟨⟨hself, -, -, -, hothers, -⟩, -⟩ := State.placeEntryClaim_places he
  by_cases hji : j = i
  · subst hji
    rw [hself]
    rfl
  · by_cases hd : s.pushesOut e.defn.channel (entryClaim i e.defn) (.entry j)
    · exact ((hothers j hji).1 hd).noticed hs hj
    · obtain ⟨h1, h2⟩ := (hothers j hji).2 hd
      rw [h1]
      rw [h2] at hj
      exact hs j hj

theorem Slot.countSecond_isSome (x : Slot) : x.countSecond.entry.isSome = x.entry.isSome := by
  cases h : x.entry with
  | none => rw [Slot.countSecond_none h, h]
  | some e =>
    rw [Slot.countSecond_some h]
    split
    · rfl
    · rw [h]

theorem Move.noticed (h : Move b s t) (hs : s.Noticed) : t.Noticed := by
  cases h with
  | notices a inputs _ hn _ => exact fun i hi => (hn i hi).elim (hs i) id
  | place c k => exact hs.place c k
  | remove c src => exact hs.setList c _
  | seconds =>
    refine hs.of_same rfl fun i hi => ?_
    rw [State.countSeconds_slot, Slot.countSecond_isSome]
    exact hi
  | rewrite i e e' gen => exact hs.withSlot i gen e'
  | add i e gen => exact hs.withSlot i gen e
  | free i => exact hs.freeSlot i
  | delete i => exact (hs.withdrawEntryClaim i).freeSlot i
  | withdraw i e e' gen => exact (hs.withdrawEntryClaim i).withSlot i gen e'
  | enter i e e' gen => exact (hs.withSlot i gen e').placeEntryClaim (e := e') (by simp)
  | update i e d gen => exact (hs.withSlot i gen _).setList _ _
  | _ => exact hs

/-! ### A part that does not run -/

/-- A part that does not run is left alone by every move but those of pins, timebase, clock and dates. -/
theorem Move.of_not_running (h : Move b s t) (hr : s.running = false) :
    ∃ pins tb ck d, t = { s with pins := pins, timebase := tb, clock := ck, dates := d } := by
  cases h with
  | outside pins tb ck => exact ⟨pins, tb, ck, s.dates, rfl⟩
  | dates d => exact ⟨s.pins, s.timebase, s.clock, d, rfl⟩
  | _ => simp_all

theorem State.RestSound.of_running (hr : s.running = true) : s.RestSound := fun h => absurd h (by simp [hr])

theorem State.NoticesSound.of_running (hr : s.running = true) (hn : s.Noticed) : s.NoticesSound :=
  ⟨hn, fun h => absurd h (by simp [hr])⟩

theorem Move.restSound (h : Move b s t) (hs : s.RestSound) : t.RestSound := by
  cases hr : s.running with
  | true => exact .of_running (h.running.trans hr)
  | false =>
    obtain ⟨pins, tb, ck, d, rfl⟩ := h.of_not_running hr
    exact hs

theorem Move.noticesSound (h : Move b s t) (hs : s.NoticesSound) : t.NoticesSound := by
  cases hr : s.running with
  | true => exact .of_running (h.running.trans hr) (h.noticed hs.1)
  | false =>
    obtain ⟨pins, tb, ck, d, rfl⟩ := h.of_not_running hr
    exact hs

/-- In a main reset a channel drives its fallback action already. -/
theorem ChannelRun.afterReset_takeTarget (cfg : ChannelConfig) :
    (ChannelRun.afterReset cfg).takeTarget cfg cfg.fallback = ChannelRun.afterReset cfg := by
  unfold ChannelRun.afterReset
  split
  · unfold ChannelRun.restartProof
    split <;> simp [ChannelRun.takeTarget, ChannelRun.outOfService]
  · rfl

theorem State.discardVolatile_restSound (s : State) : s.discardVolatile.RestSound :=
  fun _ => ⟨rfl, rfl, rfl, rfl, rfl, rfl, rfl⟩

theorem State.discardVolatile_noticesSound (s : State) : s.discardVolatile.NoticesSound := by
  refine ⟨fun i hi => absurd ?_ hi, fun _ => ⟨rfl, rfl⟩⟩
  simp [State.discardVolatile, Attention.reset]

theorem Slot.disarm_isSome (x : Slot) : x.disarm.entry.isSome = x.entry.isSome := by
  cases h : x.entry with
  | none => rw [Slot.disarm_none h, h]
  | some e =>
    rw [Slot.disarm_some h]
    split
    · rfl
    · rw [h]

/-- The channels of a part that does not run, told that no claim stands, stay as they are. -/
theorem afterReset_channels {channels : Vector ChannelRun 24} (h : s.channels = s.configs.map ChannelRun.afterReset)
    (hc : ∀ c : Chan, channels[c] = (s.channel c).takeTarget (s.config c) (s.config c).fallback) :
    channels = s.configs.map ChannelRun.afterReset := by
  ext1 n hn
  have hrun : s.channel ⟨n, hn⟩ = ChannelRun.afterReset (s.config ⟨n, hn⟩) := by
    simp [State.channel, State.config, h]
  have hx := hc ⟨n, hn⟩
  rw [hrun, ChannelRun.afterReset_takeTarget] at hx
  simpa [State.config] using hx

theorem loseValidity_restSound (hs : s.RestSound) : (s.setTimebase .failed).loseValidity.RestSound := by
  obtain ⟨channels, pulse, he, hc⟩ := (s.setTimebase .failed).loseValidity_eq
  rw [he, show (s.setTimebase .failed).running = s.running from rfl]
  intro hr
  obtain ⟨heng, -, hch, hatt, hm, hp, hb⟩ := hs hr
  refine ⟨?_, rfl, afterReset_channels (s := s) hch hc, ?_, hm, hp, hb⟩
  · show s.engine.abandon = _
    rw [heng]
    rfl
  · have hr' : ¬s.running = true := Bool.eq_false_iff.1 hr
    rw [if_neg hr']
    exact hatt

theorem loseValidity_noticesSound (hs : s.NoticesSound) : (s.setTimebase .failed).loseValidity.NoticesSound := by
  obtain ⟨channels, pulse, he, -⟩ := (s.setTimebase .failed).loseValidity_eq
  obtain ⟨hi, hnot⟩ := hs
  rw [he, show (s.setTimebase .failed).running = s.running from rfl]
  have hslot : ∀ i : SlotNo, (s.table.map Slot.disarm)[i].entry.isSome = (s.slot i).entry.isSome := fun i => by
    have : (s.table.map Slot.disarm)[i] = (s.slot i).disarm := by simp [State.slot]
    rw [this, Slot.disarm_isSome]
  cases hr : s.running with
  | true => exact .of_running hr fun i h => (hslot i).trans (hi i h)
  | false => exact ⟨fun i h => (hslot i).trans (hi i h), fun _ => hnot hr⟩

theorem State.endReset_running (adsel : Bool) (hn : s.supply = .normal) : (s.endReset adsel).running = true := by
  obtain ⟨inputs, bus, dates, table, engine, attention, he⟩ := s.endReset_kept adsel
  rw [he]
  simp [State.running, hn]

theorem SupplyMove.restSound (h : SupplyMove s t) (hs : s.RestSound) : t.RestSound := by
  cases h with
  | invalid _ => exact loseValidity_restSound hs
  | invalidOnBackup _ =>
    intro hr
    obtain ⟨heng, h⟩ := hs hr
    refine ⟨?_, h⟩
    show { s.engine with lastEvaluated := none } = _
    rw [heng]
    rfl
  | switchOver => exact State.discardVolatile_restSound _
  | cold x => exact State.discardVolatile_restSound _
  | beginReset => exact State.discardVolatile_restSound _
  | endReset adsel hn _ => exact .of_running (State.endReset_running adsel hn)
  | _ => exact hs

theorem SupplyMove.noticesSound (h : SupplyMove s t) (hs : s.NoticesSound) : t.NoticesSound := by
  cases h with
  | invalid _ => exact loseValidity_noticesSound hs
  | switchOver => exact State.discardVolatile_noticesSound _
  | cold x => exact State.discardVolatile_noticesSound _
  | beginReset => exact State.discardVolatile_noticesSound _
  | endReset adsel hn hr =>
    refine .of_running (State.endReset_running adsel hn) fun i hi => absurd ?_ hi
    have : (s.endReset adsel).attention.entryNotices = s.attention.entryNotices := (s.released adsel).restart_entryNotices
    rw [this, (hs.2 (by simp [State.running, hr])).1]
    simp
  | _ => exact hs

/-- A tick of a part that does not run moves the timebase alone. -/
theorem State.tick_of_not_running (hr : s.running = false) : ∃ tb, s.tick = { s with timebase := tb } := by
  unfold State.tick
  split
  · exact ⟨s.timebase, rfl⟩
  · dsimp only
    rw [if_neg (by simp [hr])]
    exact ⟨s.timebase.tick, rfl⟩

theorem State.tick_running (s : State) : s.tick.running = s.running := by
  obtain ⟨_, _, _, h, -⟩ := tick_touches s
  rw [h]
  rfl

theorem State.tick_restSound (hs : s.RestSound) : s.tick.RestSound := by
  cases hr : s.running with
  | true => exact .of_running (s.tick_running.trans hr)
  | false =>
    obtain ⟨tb, he⟩ := State.tick_of_not_running hr
    rw [he]
    exact hs

theorem State.tick_noticesSound (hs : s.NoticesSound) : s.tick.NoticesSound := by
  obtain ⟨_, _, _, h, -⟩ := tick_touches s
  rw [h]
  exact hs

theorem step_restSound (h : step s = .next t) (hs : s.RestSound) : t.RestSound :=
  step_keeps_of_moves (I := State.RestSound) (fun hm => hm.restSound) (fun hm => hm.restSound) (fun _ _ hs => hs)
    (fun _ hs => State.tick_restSound hs) h hs

theorem step_noticesSound (h : step s = .next t) (hs : s.NoticesSound) : t.NoticesSound :=
  step_keeps_of_moves (I := State.NoticesSound) (fun hm => hm.noticesSound) (fun hm => hm.noticesSound) (fun _ _ hs => hs)
    (fun _ hs => State.tick_noticesSound hs) h hs

/-- Settles O57: a move raises notices for a slot that holds an entry alone, and the supplies put a part that stops at its reset
values, which only the pins, the timebase, the clock and the dates leave behind while it rests. -/
theorem stepKeepsNoticesAndRestSound : Obligations.StepKeepsNoticesAndRestSound := by
  unfold Obligations.StepKeepsNoticesAndRestSound
  exact fun s t hn hr h => ⟨step_noticesSound h hn, step_restSound h hr⟩

end Sys2Proof.Machine
end

section
/-! PROOFS. While the clock is INVALID the schedule is quiet (R20, R66, R110, R153). -/

namespace Sys2Proof.Machine

variable {s t : State} {b : Bool}

/-- What QuietSound asks of the lists, the entries and the engine. -/
def State.AllQuiet (s : State) : Prop :=
  (∀ c : Chan, s.list c = []) ∧ s.noneActive ∧ s.engine.Quiet

theorem State.AllQuiet.not_awake (h : s.AllQuiet) (hv : s.clock.valid = false) : ¬s.Awake := by
  rintro (ha | ha)
  · rw [hv] at ha
    cases ha
  · exact ha h.2.2

theorem remove_list_sublist (s : State) (c : Chan) (src : Source) (d : Chan) : ((s.remove c src).list d).Sublist (s.list d) := by
  unfold State.remove
  by_cases hd : d = c
  · subst hd
    rw [State.setList_list_self]
    exact removeFromList_sublist _ _
  · rw [State.setList_list_ne s _ hd]

theorem withdrawEntryClaim_list_sublist (s : State) (i : SlotNo) (d : Chan) :
    ((s.withdrawEntryClaim i).list d).Sublist (s.list d) := by
  unfold State.withdrawEntryClaim
  split
  · exact List.Sublist.refl _
  · split
    · exact remove_list_sublist s _ _ d
    · exact List.Sublist.refl _

/-- The engine stays as it is, or is given work as its state allows. -/
theorem Move.engine_cases (h : Move b s t) :
    t.engine = s.engine ∨ (s.clock.valid = false → s.engine.Quiet → t.engine.Quiet) := by
  cases h with
  | engine e _ hq _ => exact .inr hq
  | place c k => exact .inl (place_eval s c k).engine
  | remove c src => exact .inl (remove_eval s c src).engine
  | delete i => exact .inl (deleteSlot_eval s i).engine
  | withdraw i e e' gen => exact .inl ((withdrawEntryClaim_eval s i).trans (withSlot_eval _ i _)).engine
  | enter i e e' gen => exact .inl ((withSlot_eval s i _).trans (placeEntryClaim_eval _ i)).engine
  | update i e d gen => exact .inl ((withSlot_eval s i _).trans (setList_eval _ _ _)).engine
  | _ => exact .inl rfl

/-- In the quiet of an INVALID clock no move places a claim. -/
theorem Move.list_of_allQuiet (h : Move b s t) (hv : s.clock.valid = false) (hs : s.AllQuiet) (c : Chan) : t.list c = [] := by
  have hnil := hs.1 c
  cases h with
  | place d k _ hv' => rw [hv] at hv'; cases hv'
  | remove d src => exact List.sublist_nil.1 (hnil ▸ remove_list_sublist s d src c)
  | seconds => rw [State.countSeconds_list, hnil]; rfl
  | delete i => exact List.sublist_nil.1 (hnil ▸ withdrawEntryClaim_list_sublist s i c)
  | withdraw i e e' gen => exact List.sublist_nil.1 (hnil ▸ withdrawEntryClaim_list_sublist s i c)
  | enter i e e' gen _ ha => exact absurd ha (hs.not_awake hv)
  | update i e d gen _ he hst => exact absurd hst.1 (hs.2.1 i e he)
  | _ => exact hnil

theorem Move.allQuiet (h : Move b s t) (hv : s.clock.valid = false) (hs : s.AllQuiet) : t.AllQuiet := by
  refine ⟨h.list_of_allQuiet hv hs, fun i e' he' ha => ?_, ?_⟩
  · have hm := h.slotStep i
    rw [he'] at hm
    generalize hx : (s.slot i).entry = x at hm
    cases hm with
    | same => exact hs.2.1 i e' hx ha
    | made e _ _ hn => exact hn ha
    | changed e _ _ hc => exact (hc ha).elim (hs.not_awake hv) (hs.2.1 i e hx)
  · rcases h.engine_cases with he | he
    · rw [he]
      exact hs.2.2
    · exact he hv hs.2.2

theorem Move.quietSound (h : Move b s t) (hs : s.QuietSound) : t.QuietSound := fun hr hv => by
  have hvs : s.clock.valid = false := Bool.eq_false_iff.2 fun hv' => by
    rw [h.valid hv'] at hv
    cases hv
  exact h.allQuiet hvs (hs (h.running.symm.trans hr) hvs)

theorem SupplyMove.quietSound (h : SupplyMove s t) (hrest : s.RestSound) (hs : s.QuietSound) : t.QuietSound := by
  cases h with
  | invalid _ =>
    obtain ⟨channels, pulse, he, -⟩ := (s.setTimebase .failed).loseValidity_eq
    rw [he]
    refine fun _ _ => ⟨fun c => by simp [State.list], fun i e' hi ha => ?_, rfl, rfl, rfl⟩
    have hi' : (s.slot i).disarm.entry = some e' := by simpa [State.slot, State.setTimebase] using hi
    obtain ⟨e, -, ⟨-, rfl⟩ | ⟨hn, rfl⟩⟩ := (Slot.disarm_activeBy _).cases hi'
    · cases ha
    · exact hn ha
  | invalidOnBackup hn => exact fun hr => absurd (show s.running = true from hr) (by simp [State.running, hn])
  | switchOver => exact fun hr => absurd hr (by simp [State.running, State.discardVolatile])
  | cold x =>
    refine fun _ _ => ⟨State.coldStart_list s x, fun i e hi => ?_, rfl, rfl, rfl⟩
    rw [State.coldStart_slot] at hi
    cases hi
  | beginReset => exact fun hr => absurd hr (by simp [State.running, State.beginReset, State.discardVolatile, State.recomputeClass])
  | endReset adsel _ hr =>
    obtain ⟨heng, harb, -⟩ := hrest (by simp [State.running, hr])
    intro _ hv
    have hvs : (s.released adsel).clock.valid = false := by
      obtain ⟨inputs, bus, dates, table, engine, attention, he⟩ := s.endReset_kept adsel
      rw [he] at hv
      exact hv
    refine ⟨fun c => ?_, fun i e' hi ha => ?_, ?_⟩
    · rw [State.endReset_list, State.list, harb]
      simp [Arbiter.reset]
    · obtain ⟨e, -, ⟨hn, rfl⟩ | ⟨-, rfl⟩⟩ := State.endReset_entry hi
      · exact hn ha
      · rw [show s.clock.valid = false from hvs] at ha
        cases ha
    · obtain ⟨pulse, he⟩ := State.restart_of_invalid hvs
      rw [State.endReset_eq, he]
      show s.engine.Quiet
      rw [heng]
      exact ⟨rfl, rfl, rfl⟩
  | _ => exact hs

/-- Settles O58: with an INVALID clock no move places a claim, activates an entry or gives the engine work, and every way into an
INVALID clock clears all three. -/
theorem stepKeepsQuietWhileInvalid : Obligations.StepKeepsQuietWhileInvalid := by
  unfold Obligations.StepKeepsQuietWhileInvalid
  intro s t hr hq h
  refine (step_keeps_of_moves (I := fun u => u.RestSound ∧ u.QuietSound) (fun hm hs => ⟨hm.restSound hs.1, hm.quietSound hs.2⟩)
    (fun hm hs => ⟨hm.restSound hs.1, hm.quietSound hs.1 hs.2⟩) (fun _ _ hs => hs) (fun s hs => ⟨State.tick_restSound hs.1, ?_⟩) h
    ⟨hr, hq⟩).2
  obtain ⟨_, _, _, he, -⟩ := tick_touches s
  rw [he]
  exact hs.2

end Sys2Proof.Machine
end

section
/-! PROOFS. Claims and entries keep agreeing (R15, R93, R100). -/

namespace Sys2Proof.Machine

variable {s t : State} {b : Bool}

/-! ### What a placement does to the claims of entries -/

/-- An entry claim of another source is among the nine exactly where it was in the list. -/
theorem mem_insertNewest_other {l : List Claim} {c x : Claim} (hx : x.lifetime = .entry) (hs : x.source ≠ c.source) :
    x ∈ insertNewest l c ↔ x ∈ l := by
  rw [mem_insertNewest_iff]
  have hne : x ≠ c.newest l := fun h => hs (by rw [h]; rfl)
  refine ⟨fun h => h.elim (fun h => absurd h hne) fun h => (mem_clearedFor h).1, fun h => .inr ?_⟩
  refine mem_dropSource.2 ⟨?_, hs⟩
  split
  · exact mem_dropUntilEdge.2 ⟨h, by rw [hx]; rfl⟩
  · exact h

theorem mem_of_getLast? {l : List Claim} {last : Claim} (h : l.getLast? = some last) (x : Claim) :
    x ∈ l ↔ x ∈ l.dropLast ∨ x = last := by
  conv_lhs => rw [← List.dropLast_append_getLast? last h]
  simp

/-- A placement leaves an entry's claim where it was, but for the one it pushes out and the newcomer's own. -/
theorem mem_placeInList_other {l : List Claim} {c x : Claim} (hx : x.lifetime = .entry) (hs : x.source ≠ c.source)
    (hd : ∀ d, (placeInList l c).displaced = some d → d.source ≠ x.source) : x ∈ (placeInList l c).list ↔ x ∈ l := by
  have hn := mem_insertNewest_other (l := l) hx hs
  unfold placeInList at hd ⊢
  split
  · exact hn
  · next hlen =>
    rw [if_neg hlen] at hd
    rcases overflowList_cases l (insertNewest l c) c.source with ⟨-, he⟩ | ⟨last, hl, ⟨-, he⟩ | ⟨-, -, he⟩ | ⟨-, -, he⟩⟩ <;>
      rw [he] at hd ⊢
    · exact hn
    · have hne : x ≠ last := fun h => hd last rfl (by rw [h])
      rw [List.mem_filter, ← hn, mem_of_getLast? hl]
      simp [hx, Lifetime.isUntilEdge, hne]
    · have hne : x ≠ last := fun h => hd last rfl (by rw [h])
      rw [← hn, mem_of_getLast? hl]
      simp [hne]

/-- The claim that is pushed out was in the list, and none of its source is left. -/
theorem placeInList_displaced_mem {l : List Claim} (h : ListOrdered l) {c d : Claim}
    (hd : (placeInList l c).displaced = some d) :
    d ∈ l ∧ ∀ x ∈ (placeInList l c).list, x.source ≠ d.source := by
  have hsrc := (placeInList_displaced hd).2
  have key : ∀ last, (insertNewest l c).getLast? = some last → last.source ≠ c.source →
      last ∈ l ∧ ∀ x ∈ (insertNewest l c).dropLast, x.source ≠ last.source := fun last hl hs => by
    refine ⟨?_, fun x hx he => ?_⟩
    · rcases mem_insertNewest (List.mem_of_getLast? hl) with h | h
      · exact h
      · exact absurd (by rw [h]; rfl) hs
    · have hnd := (insertNewest_listOrdered h c).1
      rw [← List.dropLast_append_getLast? last hl, List.map_append, List.nodup_append] at hnd
      exact hnd.2.2 _ (List.mem_map_of_mem hx) _ (by simp) he
  unfold placeInList at hd ⊢
  split at hd
  · cases hd
  · next hlen =>
    rw [if_neg hlen]
    rcases overflowList_cases l (insertNewest l c) c.source with ⟨-, he⟩ | ⟨last, hl, ⟨-, he⟩ | ⟨hs, -, he⟩ | ⟨hs, -, he⟩⟩ <;>
      rw [he] at hd ⊢ <;> cases hd
    · exact ⟨(key d hl hs).1, fun x hx => (key d hl hs).2 x (List.mem_filter.1 hx).1⟩
    · exact key d hl hs

theorem mem_removeFromList_other {l : List Claim} {src : Source} {x : Claim} (hx : x.lifetime = .entry) (hs : x.source ≠ src) :
    x ∈ removeFromList l src ↔ x ∈ l := by
  unfold removeFromList
  split
  · rfl
  · have hd : x ∈ dropSource l src ↔ x ∈ l := by simp [mem_dropSource, hs]
    split
    · rw [mem_dropUntilEdge, hd, hx]
      simp [Lifetime.isUntilEdge]
    · exact hd

theorem mem_updateInList_other {l : List Claim} {src : Source} {priority : Nat} {action : Action} {x : Claim} (hs : x.source ≠ src) :
    x ∈ updateInList l src priority action ↔ x ∈ l := by
  unfold updateInList
  split
  · rfl
  · next c hc =>
    obtain ⟨-, hcs⟩ := claimOf_eq_some hc
    rw [mem_insertClaim, mem_dropSource]
    have hne : x ≠ { c with priority := priority, action := action } := fun h => hs (by rw [h]; exact hcs)
    simp [hne, hs]

/-! ### Agreement, slot by slot -/

/-- The claims of the entry in slot `i` agree with it: each is backed, and there is one where the entry tells that it stands. -/
def State.ClaimsAt (s : State) (i : SlotNo) : Prop :=
  (∀ c : Chan, ∀ k ∈ s.list c, k.source = .entry i →
      ∃ e, (s.slot i).entry = some e ∧ e.Stands ∧ e.defn.channel = c ∧ k.priority = e.defn.priority ∧ k.action = e.defn.action) ∧
    ∀ e, (s.slot i).entry = some e → e.Stands → ∃ k ∈ s.list e.defn.channel, k.source = .entry i

/-- Every claim has a lifetime that its source may carry. -/
def State.LifetimesFit (s : State) : Prop := ∀ c : Chan, ∀ k ∈ s.list c, k.lifetimeFits = true

/-- The claims and entries of a part that runs agree. -/
def State.Agree (s : State) : Prop := s.LifetimesFit ∧ ∀ i, s.ClaimsAt i

theorem claimOf_isSome_iff {l : List Claim} {src : Source} : (claimOf l src).isSome = true ↔ ∃ k ∈ l, k.source = src := by
  simp [claimOf, List.find?_isSome]

theorem claimsSound_iff_agree (hr : s.running = true) : s.ClaimsSound ↔ s.Agree := by
  have hin : s.inReset = false := by
    simp only [State.running, Bool.and_eq_true, Bool.not_eq_true'] at hr
    exact hr.2
  constructor
  · rintro ⟨hb, hh, -⟩
    refine ⟨fun c k hk => (hb c k hk).2, fun i => ⟨fun c k hk hs => ?_, fun e he hst => ?_⟩⟩
    · obtain ⟨e, he, ha, hheld, h⟩ := (hb c k hk).1 i hs
      exact ⟨e, he, ⟨ha, hheld⟩, h⟩
    · exact claimOf_isSome_iff.1 ((hh i e he hst.1 hst.2).1 hr)
  · rintro ⟨hf, ha⟩
    refine ⟨fun c k hk => ⟨fun i hs => ?_, hf c k hk⟩, fun i e he hact hheld => ⟨fun _ => ?_, fun _ => hin⟩, fun h => ?_⟩
    · obtain ⟨e, he, ⟨hact, hheld⟩, h⟩ := (ha i).1 c k hk hs
      exact ⟨e, he, hact, hheld, h⟩
    · exact claimOf_isSome_iff.2 ((ha i).2 e he ⟨hact, hheld⟩)
    · rw [hr] at h
      cases h

theorem State.LifetimesFit.entry (h : s.LifetimesFit) {c : Chan} {k : Claim} (hk : k ∈ s.list c) {i : SlotNo}
    (hs : k.source = .entry i) : k.lifetime = .entry := by
  have hf := h c k hk
  unfold Claim.lifetimeFits at hf
  rw [hs] at hf
  revert hf
  cases k.lifetime <;> simp

/-- The entries of a slot before and after a step have the same claim standing, or none. -/
inductive StandsAlike : Option Entry → Option Entry → Prop where
  | same (x : Option Entry) : StandsAlike x x
  | alike (e e' : Entry) (h : e.ClaimsAlike e') : StandsAlike (some e) (some e')
  | neither (x y : Option Entry) (hx : ∀ e, x = some e → ¬e.Stands) (hy : ∀ e, y = some e → ¬e.Stands) : StandsAlike x y

theorem StandsAlike.forth {x y : Option Entry} (h : StandsAlike x y) {e : Entry} (hx : x = some e) (hs : e.Stands) :
    ∃ e', y = some e' ∧ e'.Stands ∧ e'.defn.channel = e.defn.channel ∧ e'.defn.priority = e.defn.priority ∧
      e'.defn.action = e.defn.action := by
  cases h with
  | same => exact ⟨e, hx, hs, rfl, rfl, rfl⟩
  | alike e1 e' h =>
    cases hx
    exact ⟨e', rfl, h.1.2 hs, h.2 hs⟩
  | neither _ _ hn _ => exact absurd hs (hn e hx)

theorem StandsAlike.back {x y : Option Entry} (h : StandsAlike x y) {e' : Entry} (hy : y = some e') (hs : e'.Stands) :
    ∃ e, x = some e ∧ e.Stands ∧ e'.defn.channel = e.defn.channel := by
  cases h with
  | same => exact ⟨e', hy, hs, rfl⟩
  | alike e e1 h =>
    cases hy
    exact ⟨e, rfl, h.1.1 hs, (h.2 (h.1.1 hs)).1⟩
  | neither _ _ _ hn => exact absurd hs (hn e' hy)

/-- The claims of an entry stay where they are, and the entry tells the same of them. -/
theorem State.ClaimsAt.of_alike {i : SlotNo} (h : s.ClaimsAt i)
    (hl : ∀ (c : Chan) (k : Claim), k.source = .entry i → (k ∈ t.list c ↔ k ∈ s.list c))
    (he : StandsAlike (s.slot i).entry (t.slot i).entry) : t.ClaimsAt i := by
  refine ⟨fun c k hk hs => ?_, fun e' he' hs => ?_⟩
  · obtain ⟨e, hx, hst, hc, hp, ha⟩ := h.1 c k ((hl c k hs).1 hk) hs
    obtain ⟨e', hy, hst', hc', hp', ha'⟩ := he.forth hx hst
    exact ⟨e', hy, hst', hc'.trans hc, hp.trans hp'.symm, ha.trans ha'.symm⟩
  · obtain ⟨e, hx, hst, hc⟩ := he.back he' hs
    obtain ⟨k, hk, hks⟩ := h.2 e hx hst
    rw [hc]
    exact ⟨k, (hl _ k hks).2 hk, hks⟩

/-- No claim of the entry stands, and the entry tells of none. -/
theorem State.ClaimsAt.of_none {i : SlotNo} (hl : ∀ c : Chan, ∀ k ∈ t.list c, k.source ≠ .entry i)
    (he : ∀ e, (t.slot i).entry = some e → ¬e.Stands) : t.ClaimsAt i :=
  ⟨fun c k hk hs => absurd hs (hl c k hk), fun e hx hs => absurd hs (he e hx)⟩

/-- An entry that tells of no claim has none. -/
theorem State.ClaimsAt.no_claim {i : SlotNo} (h : s.ClaimsAt i) (he : ∀ e, (s.slot i).entry = some e → ¬e.Stands) (c : Chan) :
    ∀ k ∈ s.list c, k.source ≠ .entry i := fun k hk hs => by
  obtain ⟨e, hx, hst, -⟩ := h.1 c k hk hs
  exact he e hx hst

/-- The claims of one entry stand in one list. -/
theorem State.ClaimsAt.channel_unique {i : SlotNo} (h : s.ClaimsAt i) {c d : Chan} {k x : Claim} (hk : k ∈ s.list c)
    (hks : k.source = .entry i) (hx : x ∈ s.list d) (hxs : x.source = .entry i) : c = d := by
  obtain ⟨e, he, -, hc, -⟩ := h.1 c k hk hks
  obtain ⟨e', he', -, hd, -⟩ := h.1 d x hx hxs
  rw [he] at he'
  cases he'
  exact hc.symm.trans hd

/-! ### Placements -/

/-- A placement by another source, with its displacement, keeps the claims of an entry in agreement. -/
theorem State.ClaimsAt.placed {c : Chan} {k : Claim} {i : SlotNo} (h : s.ClaimsAt i) (hf : s.LifetimesFit)
    (hl : ListSound (s.list c)) (hk : k.source ≠ .entry i) (hc : t.list c = (placeInList (s.list c) k).list)
    (ho : ∀ d, d ≠ c → t.list d = s.list d) (hp : s.pushesOut c k (.entry i) → s.entryDisplaced t i)
    (hn : ¬s.pushesOut c k (.entry i) → t.slot i = s.slot i) : t.ClaimsAt i := by
  by_cases hpo : s.pushesOut c k (.entry i)
  · obtain ⟨d, hd, hds⟩ := hpo
    obtain ⟨hdm, hgone⟩ := placeInList_displaced_mem hl.2 hd
    refine .of_none (fun a x hx hxs => ?_) fun e' he' hst => ?_
    · by_cases ha : a = c
      · rw [ha, hc] at hx
        exact hgone x hx (hxs.trans hds.symm)
      · rw [ho a ha] at hx
        exact ha (h.channel_unique hx hxs hdm hds)
    · have hdisp := hp ⟨d, hd, hds⟩
      cases he : (s.slot i).entry with
      | none => rw [(hdisp.1 he).1, he] at he'; cases he'
      | some e =>
        rw [(hdisp.2 e he).1] at he'
        cases he'
        cases hst.2
  · refine h.of_alike (fun a x hxs => ?_) (by rw [hn hpo]; exact .same _)
    by_cases ha : a = c
    · have hsrc : x.source ≠ k.source := fun e => hk (e ▸ hxs)
      rw [ha, hc]
      constructor
      · intro hx
        rcases placeInList_mem hx with hx | hx
        · exact hx
        · exact absurd (by rw [hx]; rfl) hsrc
      · intro hx
        exact (mem_placeInList_other (hf.entry hx hxs) hsrc fun d hd e => hpo ⟨d, hd, e.trans hxs⟩).2 hx
    · rw [ho a ha]

theorem State.LifetimesFit.placed {c : Chan} {k : Claim} (hf : s.LifetimesFit) (hk : k.lifetimeFits = true)
    (hc : t.list c = (placeInList (s.list c) k).list) (ho : ∀ d, d ≠ c → t.list d = s.list d) : t.LifetimesFit := by
  intro a x hx
  by_cases ha : a = c
  · rw [ha, hc] at hx
    rcases placeInList_mem hx with hx | rfl
    · exact hf c x hx
    · exact hk
  · rw [ho a ha] at hx
    exact hf a x hx

theorem State.Agree.place (h : s.Agree) (hl : s.ListsSound) (c : Chan) {k : Claim} (hk : isEntrySource k.source = false)
    (hf : k.lifetimeFits = true) : (s.place c k).Agree := by
  obtain ⟨hc, -, ho, -, hd, -⟩ := s.place_placesClaim c k
  refine ⟨h.1.placed hf hc fun d hd => (ho.2 d hd).1, fun i => ?_⟩
  refine (h.2 i).placed h.1 (hl c) (fun e => ?_) hc (fun d hd => (ho.2 d hd).1) (fun e => (hd i e).1) fun e =>
    (State.placesClaim_others (s.place_placesClaim c k) e).1
  rw [e] at hk
  cases hk

/-- An entry that tells of no claim enters ACTIVE, or stands there without one, and hands its claim to the arbiter. -/
theorem State.Agree.enter (h : s.Agree) (hl : s.ListsSound) {i : SlotNo} {e e' : Entry} (gen : Byte)
    (he : (s.slot i).entry = some e) (hn : ¬e.Stands) (hact : e'.state = .active) :
    ((s.withSlot i { gen := gen, entry := some e' }).placeEntryClaim i).Agree := by
  let u := s.withSlot i { gen := gen, entry := some e' }
  have hu : (u.slot i).entry = some e' := by simp [u]
  obtain ⟨⟨hself, -, hk, hnk, hothers, -, -, ho, -⟩, -⟩ := State.placeEntryClaim_places hu
  have hno : ∀ c, ∀ x ∈ u.list c, x.source ≠ .entry i := (h.2 i).no_claim fun e1 h1 => by
    rw [he] at h1
    cases h1
    exact hn
  have hui : ∀ j, j ≠ i → u.ClaimsAt j := fun j hj =>
    (h.2 j).of_alike (fun _ _ _ => Iff.rfl) (by rw [State.slot_withSlot_ne s _ hj]; exact .same _)
  cases hp : (placeInList (u.list e'.defn.channel) (entryClaim i e'.defn)).kept with
  | true =>
    have hc := (hk hp).1
    obtain ⟨hmem, huniq⟩ := placeInList_kept hp
    refine ⟨State.LifetimesFit.placed (s := u) h.1 rfl hc fun d hd => (ho.2 d hd).1, fun j => ?_⟩
    by_cases hj : j = i
    · subst hj
      rw [hp] at hself
      refine ⟨fun a x hx hxs => ⟨{ e' with held := true }, by rw [hself], ⟨hact, rfl⟩, ?_⟩, fun e1 he1 _ => ?_⟩
      · by_cases ha : a = e'.defn.channel
        · rw [ha, hc] at hx
          rw [huniq x hx hxs]
          exact ⟨ha.symm, rfl, rfl⟩
        · rw [(ho.2 a ha).1] at hx
          exact absurd hxs (hno a x hx)
      · rw [hself] at he1
        cases he1
        exact ⟨_, by rw [hc]; exact hmem, rfl⟩
    · exact (hui j hj).placed h.1 (hl _) (fun e => hj (by cases e; rfl)) hc (fun d hd => (ho.2 d hd).1)
        (hothers j hj).1 fun e => ((hothers j hj).2 e).1
  | false =>
    have hlist : ∀ a, (u.placeEntryClaim i).list a = u.list a := fun a => by
      by_cases ha : a = e'.defn.channel
      · rw [ha]
        exact (hnk hp).1
      · exact (ho.2 a ha).1
    refine ⟨fun a x hx => h.1 a x (by rw [hlist] at hx; exact hx), fun j => ?_⟩
    by_cases hj : j = i
    · subst hj
      refine .of_none (fun a x hx => hno a x (by rw [hlist] at hx; exact hx)) fun e1 he1 hst => ?_
      rw [hself, hp] at he1
      cases he1
      cases hst.2
    · refine (hui j hj).of_alike (fun a x _ => by rw [hlist]) ?_
      rw [((hothers j hj).2 (State.not_pushesOut hp _)).1]
      exact .same _

/-! ### Removals and the other moves -/

/-- A step that leaves the lists and, alike, the entry of every slot. -/
theorem State.Agree.of_alike (h : s.Agree) (hl : ∀ c, t.list c = s.list c)
    (he : ∀ i, StandsAlike (s.slot i).entry (t.slot i).entry) : t.Agree :=
  ⟨fun c x hx => h.1 c x (by rw [← hl]; exact hx), fun i => (h.2 i).of_alike (fun c x _ => by rw [hl]) (he i)⟩

theorem State.Agree.withSlot (h : s.Agree) (i : SlotNo) (x : Slot) (he : StandsAlike (s.slot i).entry x.entry) :
    (s.withSlot i x).Agree := by
  refine h.of_alike (fun _ => rfl) fun j => ?_
  by_cases hj : j = i
  · subst hj
    rw [State.slot_withSlot_self]
    exact he
  · rw [State.slot_withSlot_ne s x hj]
    exact .same _

theorem mem_remove_list_other (hf : s.LifetimesFit) (c : Chan) {src : Source} {i : SlotNo} (hs : src ≠ .entry i) (a : Chan) {x : Claim}
    (hxs : x.source = .entry i) : x ∈ (s.remove c src).list a ↔ x ∈ s.list a := by
  unfold State.remove
  by_cases ha : a = c
  · subst ha
    rw [State.setList_list_self]
    refine ⟨fun hx => (removeFromList_sublist _ _).subset hx, fun hx => ?_⟩
    exact (mem_removeFromList_other (hf.entry hx hxs) fun e => hs (e.symm.trans hxs)).2 hx
  · rw [State.setList_list_ne s _ ha]

theorem State.LifetimesFit.of_sublist (hf : s.LifetimesFit) (h : ∀ c, (t.list c).Sublist (s.list c)) : t.LifetimesFit :=
  fun c x hx => hf c x ((h c).subset hx)

theorem State.Agree.remove (h : s.Agree) (c : Chan) {src : Source}
    (hs : isEntrySource src = false ∨ ∃ k, claimOf (s.list c) src = some k ∧ k.lifetime ≠ .entry) : (s.remove c src).Agree := by
  have hne : ∀ i, src ≠ .entry i := fun i e => by
    rcases hs with hs | ⟨k, hk, hkl⟩
    · rw [e] at hs
      cases hs
    · obtain ⟨hm, hks⟩ := claimOf_eq_some hk
      exact hkl (h.1.entry hm (hks.trans e))
  refine ⟨h.1.of_sublist (remove_list_sublist s c src), fun i => (h.2 i).of_alike (fun a x hxs => ?_) ?_⟩
  · exact mem_remove_list_other h.1 c (hne i) a hxs
  · rw [show (s.remove c src).slot i = s.slot i from State.setList_slot s c _ i]
    exact .same _

/-- Once the entry's claim is withdrawn none of it is left, and no other entry's claim has moved. -/
theorem State.Agree.withdrawn (h : s.Agree) (i : SlotNo) :
    (∀ c, ∀ x ∈ (s.withdrawEntryClaim i).list c, x.source ≠ .entry i) ∧
      ∀ j, j ≠ i → ∀ (c : Chan) (x : Claim), x.source = .entry j → (x ∈ (s.withdrawEntryClaim i).list c ↔ x ∈ s.list c) := by
  unfold State.withdrawEntryClaim
  cases he : (s.slot i).entry with
  | none => exact ⟨(h.2 i).no_claim fun e hx => (by rw [he] at hx; cases hx), fun _ _ _ _ _ => Iff.rfl⟩
  | some e =>
    dsimp only
    split
    · refine ⟨fun c x hx hxs => ?_, fun j hj c x hxs => mem_remove_list_other h.1 _ (fun e => hj (by cases e; rfl)) c hxs⟩
      have hmem := (remove_list_sublist s e.defn.channel (.entry i) c).subset hx
      obtain ⟨e1, he1, -, hc, -⟩ := (h.2 i).1 c x hmem hxs
      rw [he] at he1
      cases he1
      unfold State.remove at hx
      rw [← hc, State.setList_list_self] at hx
      exact claimOf_eq_none.1 (claimOf_removeFromList _ _) x hx hxs
    · next hh =>
      refine ⟨(h.2 i).no_claim fun e1 hx hst => ?_, fun _ _ _ _ _ => Iff.rfl⟩
      rw [he] at hx
      cases hx
      exact hh hst.2

/-- The claim of an entry is withdrawn, and the slot then tells of none. -/
theorem State.Agree.withdraw (h : s.Agree) (i : SlotNo) (x : Slot) (hx : ∀ e, x.entry = some e → ¬e.Stands) :
    ((s.withdrawEntryClaim i).withSlot i x).Agree := by
  obtain ⟨hgone, hothers⟩ := h.withdrawn i
  refine ⟨h.1.of_sublist (withdrawEntryClaim_list_sublist s i), fun j => ?_⟩
  by_cases hj : j = i
  · subst hj
    exact .of_none hgone (by rw [State.slot_withSlot_self]; exact hx)
  · refine (h.2 j).of_alike (hothers j hj) ?_
    rw [State.slot_withSlot_ne _ x hj, State.withdrawEntryClaim_slot]
    exact .same _

theorem Claim.countSecond_of_entry {k : Claim} (h : k.lifetime = .entry) : k.countSecond = k := by
  unfold Claim.countSecond
  rw [h]

theorem Claim.countSecond_fits (k : Claim) : k.countSecond.lifetimeFits = k.lifetimeFits := by
  obtain ⟨source, priority, action, lifetime, order⟩ := k
  cases source <;> cases lifetime <;> rfl

theorem Slot.countSecond_alike (x : Slot) : StandsAlike x.entry x.countSecond.entry := by
  cases h : x.entry with
  | none =>
    rw [Slot.countSecond_none h, h]
    exact .same _
  | some e =>
    rw [Slot.countSecond_some h]
    split
    · exact .alike e _ (Entry.ClaimsAlike.of_same rfl rfl rfl)
    · rw [h]
      exact .same _

theorem State.Agree.countSeconds (h : s.Agree) : s.countSeconds.Agree := by
  refine ⟨fun c x hx => ?_, fun i => (h.2 i).of_alike (fun c x hxs => ?_) ?_⟩
  · rw [State.countSeconds_list] at hx
    obtain ⟨k, hk, rfl⟩ := List.mem_map.1 hx
    rw [Claim.countSecond_fits]
    exact h.1 c k hk
  · rw [State.countSeconds_list, List.mem_map]
    constructor
    · rintro ⟨k, hk, rfl⟩
      rw [Claim.countSecond_source] at hxs
      rw [Claim.countSecond_of_entry (h.1.entry hk hxs)]
      exact hk
    · exact fun hk => ⟨x, hk, Claim.countSecond_of_entry (h.1.entry hk hxs)⟩
  · rw [State.countSeconds_slot]
    exact Slot.countSecond_alike _

/-- An entry's priority and action change together with those of its claim, which stands. -/
theorem State.Agree.update (h : s.Agree) {i : SlotNo} {e : Entry} {d : Definition} (gen : Byte)
    (he : (s.slot i).entry = some e) (hst : e.Stands) (hc : d.channel = e.defn.channel) :
    ((s.withSlot i { gen := gen, entry := some { e with defn := d } }).setList d.channel
      (updateInList (s.list d.channel) (.entry i) d.priority d.action)).Agree := by
  let u := s.withSlot i { gen := gen, entry := some { e with defn := d } }
  let l := updateInList (s.list d.channel) (.entry i) d.priority d.action
  obtain ⟨k, hk⟩ := Option.isSome_iff_exists.1 (claimOf_isSome_iff.2 ((h.2 i).2 e he hst))
  rw [← hc] at hk
  obtain ⟨hkm, hks⟩ := claimOf_eq_some hk
  have hmem : ∀ x, x ∈ l ↔ x = { k with priority := d.priority, action := d.action } ∨ x ∈ s.list d.channel ∧ x.source ≠ .entry i :=
    fun x => by simp only [l, updateInList, hk, mem_insertClaim, mem_dropSource]
  have hself : (u.setList d.channel l).list d.channel = l := State.setList_list_self u _ _
  have hne : ∀ a, a ≠ d.channel → (u.setList d.channel l).list a = s.list a := fun a ha => State.setList_list_ne u l ha
  refine ⟨fun a x hx => ?_, fun j => ?_⟩
  · by_cases ha : a = d.channel
    · rw [ha, hself] at hx
      rcases (hmem x).1 hx with rfl | ⟨hx, -⟩
      · exact h.1 _ k hkm
      · exact h.1 _ x hx
    · rw [hne a ha] at hx
      exact h.1 a x hx
  · by_cases hj : j = i
    · subst hj
      have hslot : (u.setList d.channel l).slot j = { gen := gen, entry := some { e with defn := d } } := by
        rw [State.setList_slot]
        exact State.slot_withSlot_self s j _
      refine ⟨fun a x hx hxs => ⟨{ e with defn := d }, by rw [hslot], hst, ?_⟩, fun e1 he1 _ => ?_⟩
      · by_cases ha : a = d.channel
        · rw [ha, hself] at hx
          rcases (hmem x).1 hx with rfl | ⟨-, hx⟩
          · exact ⟨ha.symm, rfl, rfl⟩
          · exact absurd hxs hx
        · rw [hne a ha] at hx
          exact absurd ((h.2 j).channel_unique hx hxs hkm hks) ha
      · rw [hslot] at he1
        cases he1
        exact ⟨{ k with priority := d.priority, action := d.action }, by rw [hself]; exact (hmem _).2 (.inl rfl), hks⟩
    · refine (h.2 j).of_alike (fun a x hxs => ?_) ?_
      · by_cases ha : a = d.channel
        · rw [ha, hself]
          exact mem_updateInList_other fun e => hj (by rw [hxs] at e; cases e; rfl)
        · rw [hne a ha]
      · rw [State.setList_slot, State.slot_withSlot_ne s _ hj]
        exact .same _

/-- Notices have no part in the agreement. -/
theorem State.Agree.freed {i : SlotNo} (h : s.Agree) : (s.dropEntryNotice i).Agree := h

/-! ### Every step -/

theorem Move.agree (h : Move b s t) (hl : s.ListsSound) (hs : s.Agree) : t.Agree := by
  cases h with
  | place c k _ _ hk hf => exact hs.place hl c hk hf
  | remove c src _ hsrc => exact hs.remove c hsrc
  | seconds => exact hs.countSeconds
  | rewrite i e e' gen _ he _ _ hc => exact hs.withSlot i _ (he ▸ .alike e e' hc)
  | add i e gen _ he _ _ ha =>
    refine hs.withSlot i _ (.neither _ _ (fun e1 h1 => (by rw [he] at h1; cases h1)) fun e1 h1 => ?_)
    cases h1
    exact Entry.not_stands_of_state ha
  | free i _ hst =>
    exact (hs.withSlot i { gen := (s.slot i).gen + 1, entry := none } (.neither _ _ hst fun _ h => by cases h)).freed
  | delete i =>
    exact (hs.withdraw i { gen := ((s.withdrawEntryClaim i).slot i).gen + 1, entry := none } fun _ h => by cases h).freed
  | withdraw i e e' gen _ _ _ ha =>
    refine hs.withdraw i _ fun e1 h1 => ?_
    cases h1
    exact Entry.not_stands_of_state ha
  | enter i e e' gen _ _ he hn ha => exact hs.enter hl gen he hn ha
  | update i e d gen _ he hst _ hc => exact hs.update gen he hst hc
  | _ => exact hs

/-- The lists are sound, and claims and entries agree. -/
def State.ArbiterSound (s : State) : Prop := s.ListsSound ∧ s.ClaimsSound

theorem Move.listsSound (h : Move b s t) (hs : s.ListsSound) : t.ListsSound := fun c => (h.listStep c).sound (hs c)

theorem SupplyMove.listsSound (h : SupplyMove s t) (hs : s.ListsSound) : t.ListsSound := fun c => by
  rcases h.list c with he | he <;> rw [he]
  · exact hs c
  · exact listSound_nil

theorem Move.arbiterSound (h : Move b s t) (hs : s.ArbiterSound) : t.ArbiterSound := by
  refine ⟨h.listsSound hs.1, ?_⟩
  cases hr : s.running with
  | true => exact (claimsSound_iff_agree (h.running.trans hr)).2 (h.agree hs.1 ((claimsSound_iff_agree hr).1 hs.2))
  | false =>
    obtain ⟨pins, tb, ck, d, rfl⟩ := h.of_not_running hr
    exact hs.2

/-- With every list empty the claims agree where no ACTIVE entry is held, or the supply is not NORMAL and the part rests. -/
theorem State.ClaimsSound.of_empty (hl : ∀ c, s.list c = [])
    (hh : ∀ (i : SlotNo) (e : Entry), (s.slot i).entry = some e → e.state = .active → e.held = true →
      s.supply ≠ .normal) : s.ClaimsSound := by
  refine ⟨fun c k hk => ?_, fun i e he ha hheld => ?_, fun _ => hl⟩
  · rw [hl] at hk
    cases hk
  · have hn := hh i e he ha hheld
    exact ⟨fun hr => absurd hr (by simp [State.running, hn]), fun h => absurd h hn⟩

theorem SupplyMove.claimsSound (h : SupplyMove s t) (hs : s.ClaimsSound) : t.ClaimsSound := by
  cases h with
  | invalid _ =>
    obtain ⟨channels, pulse, he, -⟩ := (s.setTimebase .failed).loseValidity_eq
    rw [he]
    refine .of_empty (fun c => by simp [State.list]) fun i e' hi ha hh => ?_
    have hi' : (s.slot i).disarm.entry = some e' := by simpa [State.slot, State.setTimebase] using hi
    obtain ⟨e, -, ⟨-, rfl⟩ | ⟨hn, rfl⟩⟩ := (Slot.disarm_activeBy _).cases hi'
    · cases ha
    · exact absurd ha hn
  | switchOver => exact .of_empty (State.discardVolatile_list _) fun _ _ _ _ _ => nofun
  | cold x =>
    refine .of_empty (State.coldStart_list s x) fun i e hi => ?_
    rw [State.coldStart_slot] at hi
    cases hi
  | beginReset =>
    refine .of_empty (State.beginReset_list s) fun i e' hi ha hh => ?_
    rw [State.beginReset_slot] at hi
    obtain ⟨e, -, ⟨-, rfl⟩ | ⟨hn, rfl⟩⟩ := (Slot.clearHeld_activeBy _).cases hi
    · cases hh
    · exact absurd ha hn
  | endReset adsel hn hr =>
    obtain ⟨-, hheld, hempty⟩ := hs
    refine .of_empty (fun c => ?_) fun i e' hi ha hh => ?_
    · rw [State.endReset_list]
      exact hempty (by simp [State.running, hr]) c
    · obtain ⟨e, he, ⟨hne, rfl⟩ | ⟨hact, rfl⟩⟩ := State.endReset_entry hi
      · exact absurd ha hne
      · split at hh
        · have := (hheld i e he hact hh).2 hn
          rw [hr] at this
          cases this
        · cases hh
  | _ => exact hs

/-- Settles O59: a claim comes with the entry that places it, leaves with its edge, its displacement or its entry, and both change
together. -/
theorem stepKeepsClaimsSound : Obligations.StepKeepsClaimsSound := by
  unfold Obligations.StepKeepsClaimsSound
  intro s t hl hc h
  refine (step_keeps_of_moves (I := State.ArbiterSound) (fun hm => hm.arbiterSound)
    (fun hm hs => ⟨hm.listsSound hs.1, hm.claimsSound hs.2⟩) (fun _ _ hs => hs) (fun s hs => ?_) h ⟨hl, hc⟩).2
  obtain ⟨_, _, _, he, -⟩ := tick_touches s
  rw [he]
  exact hs

end Sys2Proof.Machine
end

section
/-! PROOFS. The attention unit: IRQN follows the groups, and what its commands answer (chapter 9). -/

namespace Sys2Proof.Machine

variable {s t : State}

/-! ### Every row of a command by its body -/

/-- What carries a command out; WIPE_TABLE alone is not answered at once. -/
def Command.body (p : Port) : Command → Option Body
  | .readClock => some readClockBody
  | .setClock => some (setClockBody p)
  | .snapMinute => some (snapMinuteBody p)
  | .addDate => some (addDateBody p)
  | .removeDate => some (removeDateBody p)
  | .listDates => some listDatesBody
  | .addEntry => some (addEntryBody p)
  | .readEntry => some readEntryBody
  | .modifyEntry => some (modifyEntryBody p)
  | .suspendEntry => some (suspendEntryBody p)
  | .resumeEntry => some (resumeEntryBody p)
  | .deleteEntry => some (deleteEntryBody p)
  | .findEntries => some findEntriesBody
  | .wipeTable => none
  | .configureChannel => some (configureChannelBody p)
  | .readChannel => some readChannelBody
  | .forceChannel => some (forceChannelBody p)
  | .releaseChannel => some (releaseChannelBody p)
  | .clearFault => some (clearFaultBody p)
  | .bindInput => some (bindInputBody p)
  | .readInput => some readInputBody
  | .nextCause => some nextCauseBody
  | .nextEntryNotice => some nextEntryNoticeBody
  | .configureAttention => some (configureAttentionBody p)
  | .takeChannelNotice => some takeChannelNoticeBody
  | .takeInputEvents => some takeInputEventsBody
  | .ackClock => some ackClockBody
  | .setPanelPolicy => some (setPanelPolicyBody p)

theorem exec_row {c : Command} {p : Port} {body : Body} (hb : c.body p = some body) (s : State) :
    exec (c.row p) s = .next (if c.isTable then s.serveTable c p body else s.serve c p body) := by
  cases c <;> cases hb <;> rfl

/-- A request that stands, and does not wait for the table, is answered with the reply that its body gives, in the state that its
body gives. -/
theorem State.asks.served {p : Port} {c : Command} {tag : Byte} {payload : List Byte} {body : Body} {u : State} {reply : Reply}
    (h : s.asks p c tag payload) (hf : c.isTable = true → s.tableFree = true) (hb : c.body p = some body)
    (hx : body payload s = (u, reply)) (hp : u.port p = s.port p) : exec (c.row p) s = .next (u.answered p tag reply) := by
  have hserve : s.serve c p body = u.answered p tag reply := by
    rw [State.serve_asks h (by rw [hx]; exact hp), hx]
  rw [exec_row hb]
  split
  · next ht => rw [State.serveTable_free (hf ht), hserve]
  · rw [hserve]

/-- A body that reads, or refuses, changes nothing but the answer. -/
theorem State.asks.read {p : Port} {c : Command} {tag : Byte} {payload : List Byte} {body : Body} {reply : Reply}
    (h : s.asks p c tag payload) (hf : c.isTable = true → s.tableFree = true) (hb : c.body p = some body)
    (hx : body payload s = (s, reply)) : exec (c.row p) s = .next (s.answered p tag reply) :=
  h.served hf hb hx rfl

/-! ### Every move has IRQN follow -/

theorem State.IrqFollows.refl (s : State) : s.IrqFollows s := .of_same rfl fun _ => rfl

/-- A step that leaves attention, inputs and the main port alone. -/
theorem State.IrqFollows.of_fields (ha : t.attention = s.attention) (hi : t.inputs = s.inputs) (hm : t.mainPort = s.mainPort) :
    s.IrqFollows t :=
  .of_same ha (State.groupPending_eq ha hi (by rw [hm]))

theorem raiseEntry_irqFollows (s : State) (i : SlotNo) (cause : EntryCause) : s.IrqFollows (s.raiseEntry i cause) := by
  unfold State.raiseEntry
  split
  · exact .refl s
  · split
    · exact .refl s
    · exact .follow rfl rfl

theorem setList_irqFollows (s : State) (c : Chan) (l : List Claim) : s.IrqFollows (s.setList c l) := by
  rw [State.setList_kept]
  exact .of_fields rfl rfl rfl

theorem setHeld_irqFollows (s : State) (i : SlotNo) (held : Bool) : s.IrqFollows (s.setHeld i held) := by
  unfold State.setHeld
  split
  · exact .refl s
  · exact .of_fields rfl rfl rfl

theorem displace_irqFollows (s : State) (c : Chan) (k : Claim) : s.IrqFollows (s.displace c k) := by
  unfold State.displace
  split
  · exact (setHeld_irqFollows s _ false).trans (raiseEntry_irqFollows _ _ _)
  · exact .follow rfl rfl
  · exact .follow rfl rfl

theorem place_irqFollows (s : State) (c : Chan) (k : Claim) : s.IrqFollows (s.place c k) := by
  unfold State.place
  dsimp only
  split
  · exact setList_irqFollows s c _
  · exact (setList_irqFollows s c _).trans (displace_irqFollows _ c _)

theorem freeSlot_irqFollows (s : State) (i : SlotNo) : s.IrqFollows (s.freeSlot i) :=
  (State.IrqFollows.of_fields rfl rfl rfl : s.IrqFollows (s.withSlot i { gen := (s.slot i).gen + 1, entry := none })).trans
    (.follow rfl rfl)

theorem withdrawEntryClaim_irqFollows (s : State) (i : SlotNo) : s.IrqFollows (s.withdrawEntryClaim i) := by
  unfold State.withdrawEntryClaim
  split
  · exact .refl s
  · split
    · exact setList_irqFollows s _ _
    · exact .refl s

theorem placeEntryClaim_irqFollows (s : State) (i : SlotNo) : s.IrqFollows (s.placeEntryClaim i) := by
  unfold State.placeEntryClaim
  split
  · exact .refl s
  · split
    · exact (place_irqFollows s _ _).trans (setHeld_irqFollows _ i true)
    · exact (setHeld_irqFollows s i false).trans (raiseEntry_irqFollows _ i _)

theorem Move.irqFollows (h : Move true s t) : s.IrqFollows t := by
  cases h with
  | ports main panel bus pulse _ hi => exact hi
  | notices a inputs _ _ hi => exact hi rfl
  | place c k => exact place_irqFollows s c k
  | remove c src => exact setList_irqFollows s c _
  | free i => exact freeSlot_irqFollows s i
  | delete i => exact (withdrawEntryClaim_irqFollows s i).trans (freeSlot_irqFollows _ i)
  | withdraw i e e' gen =>
    exact (withdrawEntryClaim_irqFollows s i).trans (.of_fields rfl rfl rfl)
  | enter i e e' gen =>
    exact (State.IrqFollows.of_fields rfl rfl rfl : s.IrqFollows (s.withSlot i { gen := gen, entry := some e' })).trans
      (placeEntryClaim_irqFollows _ i)
  | update i e d gen =>
    exact (State.IrqFollows.of_fields rfl rfl rfl :
      s.IrqFollows (s.withSlot i { gen := gen, entry := some { e with defn := d } })).trans (setList_irqFollows _ _ _)
  | _ => exact .of_fields rfl rfl rfl

theorem Moves.irqFollows (h : Moves true s t) : s.IrqFollows t := by
  induction h with
  | refl => exact .refl s
  | tail _ hm ih => exact ih.trans hm.irqFollows

/-! ### The supplies, from a part that runs to a part that runs -/

theorem loseValidity_irqFollows (s : State) : s.IrqFollows s.loseValidity := by
  let u := ((s.withClock { s.clock with valid := false }).withEngine s.engine.abandon).withTable (s.table.map Slot.disarm)
  obtain ⟨channels, hk, -⟩ := u.emptyLists_eq
  have hu : s.IrqFollows u.emptyLists := by
    rw [hk]
    exact .of_fields rfl rfl rfl
  have he : s.loseValidity = if u.emptyLists.running then u.emptyLists.raiseInvalid else u.emptyLists := rfl
  rw [he]
  split
  · exact hu.trans (.follow rfl rfl)
  · exact hu

theorem SupplyStep.irqFollows (h : SupplyStep s t) (hr : s.running = true) (ht : t.running = true) : s.IrqFollows t := by
  obtain ⟨hn, hin⟩ : s.supply = .normal ∧ s.inReset = false := by simpa [State.running] using hr
  cases h with
  | gap =>
    rcases s.crystalGap_cases with he | ⟨he, -⟩ | ⟨he, -⟩ | ⟨he, -, -⟩ | ⟨-, h⟩
    · rw [he]
      exact .refl s
    · rw [he]
      exact .of_fields rfl rfl rfl
    · rw [he]
      exact .of_fields rfl rfl rfl
    · rw [he]
      exact (State.IrqFollows.of_fields rfl rfl rfl : s.IrqFollows (s.setTimebase .failed)).trans (loseValidity_irqFollows _)
    · exact absurd hn h
  | rstnLow =>
    unfold State.rstnGoesLow at ht
    rw [if_pos hr] at ht
    simp [State.running, State.beginReset, State.discardVolatile, State.recomputeClass] at ht
  | rstnRises adsel =>
    unfold State.rstnRises
    rw [if_neg (by simp [hin])]
    exact .of_fields rfl rfl rfl
  | vmainLost =>
    unfold State.vmainLost at ht
    rw [hn] at ht
    dsimp only at ht
    split at ht <;> simp [State.running, State.discardVolatile, State.coldStart] at ht
  | vmainReturns adsel =>
    unfold State.vmainReturns
    rw [hn]
    exact .refl s
  | vbakAppears =>
    unfold State.vbakAppears
    rw [if_neg (by simp [hn])]
    exact .of_fields rfl rfl rfl
  | vbakLost =>
    unfold State.vbakLost
    rw [if_neg (by simp [hn])]
    exact .of_fields rfl rfl rfl

/-! ### IRQN (R172, R174, R175) -/

theorem Group.any_all {f : Group → Bool} : Group.all.any f = true ↔ ∃ g, f g = true := by
  simp only [List.any_eq_true]
  exact ⟨fun ⟨g, _, h⟩ => ⟨g, h⟩, fun ⟨g, h⟩ => ⟨g, g.mem_all, h⟩⟩

theorem State.irqAsserted_level (hr : s.running = true) (hm : s.attention.irqMode = .level) :
    s.irqAsserted = true ↔ ∃ g : Group, s.attention.groups[g.index].enabled = true ∧ s.groupPending g = true := by
  unfold State.irqAsserted
  rw [hr, hm, Bool.true_and, Group.any_all]
  simp only [State.groupAsserts, Bool.and_eq_true]

theorem State.irqAsserted_pulse (hr : s.running = true) (hm : s.attention.irqMode = .pulse) :
    s.irqAsserted = s.attention.pulse := by
  unfold State.irqAsserted
  rw [hr, hm, Bool.true_and]

/-- CONFIGURE_ATTENTION that leaves the mode PULSE has IRQN follow the new enables. -/
theorem State.configureAttention_irqFollows (cfg : AttentionConfig) (hm : cfg.irqMode = s.attention.irqMode) :
    s.IrqFollows (s.configureAttention cfg) :=
  .follow hm rfl

theorem configureAttentionBody_irqFollows {p : Port} {payload : List Byte}
    (hm : (configureAttentionBody p payload s).1.attention.irqMode = s.attention.irqMode) :
    s.IrqFollows (configureAttentionBody p payload s).1 := by
  unfold configureAttentionBody at hm ⊢
  split
  · exact .refl s
  · next ha =>
    rw [if_neg ha] at hm
    split
    · exact .refl s
    · next cfg hc =>
      rw [hc] at hm
      exact State.configureAttention_irqFollows cfg hm

theorem respond_irqFollows (hr : s.running = true) (p : Port) (reply : Reply) : s.IrqFollows (s.respond p reply) :=
  (respond_moves (b := true) hr p reply).irqFollows

theorem exec_configureAttention_irqFollows {p : Port} (h : exec (.configureAttention p) s = .next t)
    (hm : t.attention.irqMode = s.attention.irqMode) : s.IrqFollows t := by
  obtain rfl := Host.Outcome.next.inj h
  unfold State.serve at hm ⊢
  split
  · next hr =>
    rw [if_pos hr] at hm
    split
    · exact .refl s
    · next r hq =>
      rw [hq] at hm
      dsimp only at hm
      split
      · next hc =>
        rw [if_pos hc] at hm
        have hbr : (configureAttentionBody p r.payload s).1.running = true :=
          (configureAttentionBody_moves hr p r.payload).running.trans hr
        have hresp := respond_irqFollows hbr p (configureAttentionBody p r.payload s).2
        exact (configureAttentionBody_irqFollows (hresp.1.symm.trans hm)).trans hresp
      · exact .refl s
  · exact .refl s

/-- Every row but the end of a pulse has IRQN follow the groups, where PULSE mode stays. -/
theorem exec_irqFollows {c : Instr} (h : exec c s = .next t) (hc : c ≠ .irqnPulseEnd) (hr : s.running = true)
    (ht : t.running = true) (hm : t.attention.irqMode = s.attention.irqMode) : s.IrqFollows t := by
  by_cases hcfg : ∃ p, c = .configureAttention p
  · obtain ⟨p, rfl⟩ := hcfg
    exact exec_configureAttention_irqFollows h hm
  · have hrow : irqRow c = true := by
      unfold irqRow
      split
      · exact absurd ⟨_, rfl⟩ hcfg
      · exact absurd rfl hc
      · rfl
    rcases exec_cases h with hs | hs
    · exact hs.irqFollows hr ht
    · rw [hrow] at hs
      exact hs.irqFollows

/-- A pending group has come to assert when it has become enabled. -/
theorem newly_asserting : ∀ now pending before : Bool,
    ((now && pending) && !(before && pending)) = true ↔ now = true ∧ pending = true ∧ before = false := by
  decide

/-- Settles O40: IRQN follows each arrival, and each row is made of arrivals. -/
theorem attentionDrivesIrqn : Obligations.AttentionDrivesIrqn := by
  unfold Obligations.AttentionDrivesIrqn
  refine ⟨fun s p tag payload cfg h hp hcfg => ?configure, fun s hr => ⟨?ends, fun hm => ?released, fun hm => ?level,
    fun c t h hc ht hm hmt => ?follows⟩⟩
  case configure =>
    have hb : configureAttentionBody p payload s = (s.configureAttention cfg, Reply.ok []) := by
      simp [configureAttentionBody, hp, hcfg]
    refine ⟨s.configureAttention cfg, ?_, rfl, fun hm => ⟨?_, ?_⟩, fun hm => ?_⟩
    · exact h.served nofun rfl hb (by cases p <;> rfl)
    · simp [State.configureAttention, State.irqFollow, hm]
    · rw [State.irqAsserted_level (s := s.configureAttention cfg) h.1 hm]
      rfl
    · rw [State.irqAsserted_pulse (s := s.configureAttention cfg) h.1 hm]
      have hpulse : (s.configureAttention cfg).attention.pulse = (s.attention.pulse ||
          Group.all.any fun g => (s.configureAttention cfg).groupAsserts g && !s.groupAsserts g) := by
        simp only [State.configureAttention, State.irqFollow, State.withAttention, hm]
        rfl
      have hg : ∀ g, (s.configureAttention cfg).groupAsserts g = (cfg.groups[g.index].enabled && s.groupPending g) :=
        fun g => by cases g <;> rfl
      rw [hpulse, Bool.or_eq_true, Group.any_all]
      refine or_congr_right (exists_congr fun g => ?_)
      rw [hg, State.groupAsserts]
      exact newly_asserting _ _ _
  case ends =>
    show Host.Outcome.next s.pulseEnds = _
    unfold State.pulseEnds
    rw [if_pos hr]
    rfl
  case released => exact State.irqAsserted_pulse (s := { s with attention := { s.attention with pulse := false } }) hr hm
  case level => exact State.irqAsserted_level hr hm
  case follows =>
    obtain ⟨-, hf⟩ := exec_irqFollows h hc hr ht (hmt.trans hm.symm)
    rw [State.irqAsserted_pulse hr hm, State.irqAsserted_pulse ht hmt]
    exact hf hm

/-! ### NEXT_CAUSE (R173) -/

/-- NEXT_CAUSE's choice between the group it has and the next in order. -/
def State.prefer (s : State) (best : Option Group) (g : Group) : Option Group :=
  if s.groupAsserts g then
    match best with
    | none => some g
    | some b => if s.attention.groups[b.index].level < s.attention.groups[g.index].level then some g else some b
  else best

theorem State.selectGroup_eq (s : State) : s.selectGroup = Group.all.foldl s.prefer none := rfl

/-- `best` is the group to serve among `done`: none asserts, or it asserts and every other that does has a lower level, or the
same and comes later. -/
def State.Selects (s : State) (done : List Group) (best : Option Group) : Prop :=
  (best = none ∧ ∀ h ∈ done, s.groupAsserts h = false) ∨
    ∃ g ∈ done, best = some g ∧ s.groupAsserts g = true ∧ ∀ h ∈ done, s.groupAsserts h = true →
      s.attention.groups[h.index].level < s.attention.groups[g.index].level ∨
        s.attention.groups[h.index].level = s.attention.groups[g.index].level ∧ g.index.val ≤ h.index.val

theorem State.Selects.prefer {done : List Group} {best : Option Group} (h : s.Selects done best) (g : Group)
    (hg : ∀ x ∈ done, x.index.val < g.index.val) : s.Selects (done ++ [g]) (s.prefer best g) := by
  have hmem : ∀ {x}, x ∈ done ++ [g] ↔ x ∈ done ∨ x = g := by simp
  unfold State.prefer
  cases ha : s.groupAsserts g with
  | false =>
    rw [if_neg Bool.false_ne_true]
    rcases h with ⟨hb, hn⟩ | ⟨b, hb, he, hab, hall⟩
    · exact .inl ⟨hb, fun x hx => (hmem.1 hx).elim (hn x) fun e => e ▸ ha⟩
    · refine .inr ⟨b, hmem.2 (.inl hb), he, hab, fun x hx hxa => (hmem.1 hx).elim (fun hx => hall x hx hxa) fun e => ?_⟩
      rw [e, ha] at hxa
      cases hxa
  | true =>
    rw [if_pos rfl]
    rcases h with ⟨hb, hn⟩ | ⟨b, hb, he, hab, hall⟩
    · rw [hb]
      refine .inr ⟨g, hmem.2 (.inr rfl), rfl, ha, fun x hx hxa => (hmem.1 hx).elim (fun hx => ?_) fun e => ?_⟩
      · rw [hn x hx] at hxa
        cases hxa
      · exact .inr ⟨e ▸ rfl, e ▸ le_rfl⟩
    · rw [he]
      dsimp only
      split
      · next hlt =>
        refine .inr ⟨g, hmem.2 (.inr rfl), rfl, ha, fun x hx hxa => (hmem.1 hx).elim (fun hx => ?_) fun e => ?_⟩
        · have := hall x hx hxa
          omega
        · exact .inr ⟨e ▸ rfl, e ▸ le_rfl⟩
      · next hge =>
        refine .inr ⟨b, hmem.2 (.inl hb), rfl, hab, fun x hx hxa => (hmem.1 hx).elim (fun hx => hall x hx hxa) fun e => ?_⟩
        have hbg := hg b hb
        rw [e]
        omega

theorem State.Selects.foldl {done rest : List Group} {best : Option Group} (h : s.Selects done best)
    (ho : (done ++ rest).Pairwise fun a b => a.index.val < b.index.val) : s.Selects (done ++ rest) (rest.foldl s.prefer best) := by
  induction rest generalizing done best with
  | nil => simpa using h
  | cons g rest ih =>
    have hlt : ∀ x ∈ done, x.index.val < g.index.val := fun x hx =>
      (List.pairwise_append.1 ho).2.2 x hx g List.mem_cons_self
    rw [List.append_cons] at ho ⊢
    exact ih (h.prefer g hlt) ho

theorem State.selectGroup_selects (s : State) : s.Selects Group.all s.selectGroup := by
  rw [State.selectGroup_eq]
  exact State.Selects.foldl (done := []) (.inl ⟨rfl, fun h hh => absurd hh List.not_mem_nil⟩) (by decide)

/-- The byte of five flags holds each in its bit. -/
theorem flags_getLsbD (a b c d e : Bool) :
    let x := flagBit a 0 ||| flagBit b 1 ||| flagBit c 2 ||| flagBit d 3 ||| flagBit e 4
    x.getLsbD 0 = a ∧ x.getLsbD 1 = b ∧ x.getLsbD 2 = c ∧ x.getLsbD 3 = d ∧ x.getLsbD 4 = e ∧ x.toNat < 32 := by
  revert a b c d e
  decide

/-- Settles O38: the fold over the groups keeps the first of the highest level. -/
theorem nextCauseSelects : Obligations.NextCauseSelects := by
  unfold Obligations.NextCauseSelects
  intro s p tag h
  obtain ⟨he, hc, hi, hk, hp, hlt⟩ := flags_getLsbD (s.groupPending .entry) (s.groupPending .channel) (s.groupPending .input)
    (s.groupPending .clock) (s.groupPending .port)
  refine ⟨groupCode s.selectGroup, s.pendingGroups, h.read nofun rfl rfl, fun g => ?_, hlt, ?_⟩
  · cases g with
    | entry => exact he
    | channel => exact hc
    | input => exact hi
    | clock => exact hk
    | port => exact hp
  · rcases s.selectGroup_selects with ⟨hn, hall⟩ | ⟨g, -, hs, ha, hall⟩
    · rw [hn]
      exact .inl ⟨rfl, fun g => hall g g.mem_all⟩
    · rw [hs]
      exact .inr ⟨g, rfl, ha, fun x hx => hall x x.mem_all hx⟩

/-! ### Taking notices (R167 to R170) -/

/-- The lowest index of a property is the one that a search from the first on finds. -/
theorem find?_finRange {n : Nat} {p : Fin n → Bool} {i : Fin n} (hi : p i = true) (hlt : ∀ j : Fin n, j.val < i.val → p j = false) :
    (List.finRange n).find? p = some i := by
  rw [List.find?_eq_some_iff_getElem]
  refine ⟨hi, i.val, by simp, by simp, fun j hj => ?_⟩
  rw [List.getElem_finRange]
  simpa using hlt ⟨j, by omega⟩ hj

theorem find?_finRange_none {n : Nat} {p : Fin n → Bool} : (List.finRange n).find? p = none ↔ ∀ i, p i = false := by
  simp [List.find?_eq_none]

theorem State.lowestNotice_none (h : ∀ i : SlotNo, s.attention.entryNotices[i] = 0) : s.lowestNotice = none :=
  find?_finRange_none.2 fun i => by rw [h i]; rfl

theorem State.lowestNotice_some {i : SlotNo} (hi : s.attention.entryNotices[i] ≠ 0)
    (hlt : ∀ j : SlotNo, j.val < i.val → s.attention.entryNotices[j] = 0) : s.lowestNotice = some i :=
  find?_finRange (by simpa using hi) fun j hj => by rw [hlt j hj]; rfl

theorem State.lowestChannelNotice_none (h : ∀ c : Chan, s.attention.channelNotices[c] = 0) : s.lowestChannelNotice = none :=
  find?_finRange_none.2 fun c => by rw [h c]; rfl

theorem State.lowestChannelNotice_some {c : Chan} (hc : s.attention.channelNotices[c] ≠ 0)
    (hlt : ∀ d : Chan, d.val < c.val → s.attention.channelNotices[d] = 0) : s.lowestChannelNotice = some c :=
  find?_finRange (by simpa using hc) fun d hd => by rw [hlt d hd]; rfl

/-- The slot has left the notice set; its SPENT autofree entry is freed with its SPENT cause (R167). -/
theorem State.freeTaken_cases (s : State) (i : SlotNo) :
    let causes := s.attention.entryNotices[i]
    let u := (s.dropEntryNotice i).freeTaken i causes
    u = { s with
        table := u.table
        attention := { s.attention with entryNotices := s.attention.entryNotices.set i 0, pulse := u.attention.pulse } } ∧
      ((∃ e, (s.slot i).entry = some e ∧ e.state = .spent ∧ e.defn.autofree = true ∧ causes &&& EntryCause.spent.bit ≠ 0) →
        u.table = s.table.set i { gen := (s.slot i).gen + 1, entry := none }) ∧
      ((∀ e, (s.slot i).entry = some e → e.state ≠ .spent ∨ e.defn.autofree = false ∨ causes &&& EntryCause.spent.bit = 0) →
        u.table = s.table) := by
  intro causes u
  have hslot : (s.dropEntryNotice i).slot i = s.slot i := rfl
  have hu : u = (s.dropEntryNotice i).freeTaken i causes := rfl
  unfold State.freeTaken at hu
  rw [hslot] at hu
  cases he : (s.slot i).entry with
  | none =>
    rw [he] at hu
    rw [hu]
    refine ⟨rfl, fun hx => ?_, fun _ => rfl⟩
    obtain ⟨e, h, -⟩ := hx
    cases h
  | some e =>
    rw [he] at hu
    dsimp only at hu
    split at hu
    · next hc =>
      rw [hu]
      refine ⟨?_, fun _ => rfl, fun h => ?_⟩
      · simp [State.freeSlot, State.dropEntryNotice, State.irqFollow, State.withAttention, State.withSlot]
      · obtain ⟨hb, hs, hf⟩ := hc
        rcases h e rfl with h | h | h
        · exact absurd hs h
        · rw [hf] at h
          cases h
        · exact absurd h hb
    · next hc =>
      rw [hu]
      refine ⟨rfl, fun hx => ?_, fun _ => rfl⟩
      obtain ⟨e', h, hs, hf, hb⟩ := hx
      cases h
      exact absurd ⟨hb, hs, hf⟩ hc

theorem State.dropChannelNotice_eq (s : State) (c : Chan) :
    s.dropChannelNotice c =
      { s with
        attention :=
          { s.attention with
            channelNotices := s.attention.channelNotices.set c 0, pulse := (s.dropChannelNotice c).attention.pulse } } := rfl

theorem State.ackClock_eq (s : State) (tick invalid : Bool) :
    s.ackClock tick invalid =
      { s with
        attention :=
          { s.attention with
            tickCause := s.attention.tickCause && !tick
            invalidCause := s.attention.invalidCause && !invalid
            pulse := (s.ackClock tick invalid).attention.pulse } } := rfl

/-- A set of clock causes reads back as the two causes. -/
theorem readClockCauses_flags : ∀ tick invalid : Bool,
    readClockCauses [flagBit tick 0 ||| flagBit invalid 1] = some (tick, invalid) := by
  decide

theorem State.port_of_ports {u : State} (hm : u.mainPort = s.mainPort) (hp : u.panelPort = s.panelPort) (p : Port) :
    u.port p = s.port p := by
  cases p
  · exact hm
  · exact hp

/-- Settles O39: each body takes the lowest member, the latches or the causes named, and IRQN follows. -/
theorem noticesAreTaken : Obligations.NoticesAreTaken := by
  unfold Obligations.NoticesAreTaken
  refine ⟨fun s p tag h => ⟨fun hn => ?noEntry, fun i hi hlt => ?entry⟩,
    fun s p tag h => ⟨fun hn => ?noChannel, fun c hc hlt => ?channel⟩, fun s p tag h => ?events, fun s p tag tick invalid h => ?ack⟩
  case noEntry =>
    exact h.read nofun rfl (by simp [nextEntryNoticeBody, State.lowestNotice_none hn])
  case entry =>
    obtain ⟨hu, hfreed, hkept⟩ := s.freeTaken_cases i
    refine ⟨_, hu, h.served nofun rfl ?_ (State.port_of_ports ?_ ?_ p), hfreed, hkept⟩
    · simp [nextEntryNoticeBody, State.lowestNotice_some hi hlt]
    · rw [hu]
    · rw [hu]
  case noChannel =>
    exact h.read nofun rfl (by simp [takeChannelNoticeBody, State.lowestChannelNotice_none hn])
  case channel =>
    refine ⟨_, s.dropChannelNotice_eq c, h.served nofun rfl ?_ (State.port_of_ports rfl rfl p)⟩
    simp [takeChannelNoticeBody, State.lowestChannelNotice_some hc hlt]
  case events =>
    refine ⟨s.clearLatches, rfl, fun k => ?_, h.served nofun rfl rfl (State.port_of_ports rfl rfl p)⟩
    simp [State.clearLatches, State.input]
  case ack =>
    refine ⟨_, s.ackClock_eq tick invalid, h.served nofun rfl ?_ (State.port_of_ports rfl rfl p)⟩
    unfold ackClockBody
    rw [readClockCauses_flags]
    rfl

end Sys2Proof.Machine
end

section
/-! PROOFS. The machine as a whole: the step of an empty queue, and the state at the first power-up (notes/assumptions/3.md, 4.md
and 5.md). -/

namespace Sys2Proof.Machine

variable {s t : State}

/-- Settles O1: the queue's front is taken by the step itself. -/
theorem stepTakesFrontCommand : Obligations.StepTakesFrontCommand := by
  unfold Obligations.StepTakesFrontCommand
  exact fun c rest s => rfl

/-! ### What is due -/

theorem step_of_empty (h : s.pending = []) : step s = .next s.idleStep := by
  unfold step
  rw [h]

theorem Lifetime.isDue_iff {l : Lifetime} : l.isDue = true ↔ ∃ minutes, l = .timed minutes 0 := by
  cases l <;> simp [Lifetime.isDue]

theorem mem_channelDue {i : Instr} {c : Chan} :
    i ∈ s.channelDue c ↔
      (i = .guardExpiry c ∧ (s.channel c).state = .guarding ∧ (s.channel c).guard = 0) ∨
        (i = .proofTimerExpiry c ∧ ((s.channel c).proof = .settling ∨ (s.channel c).proof = .disagree) ∧
          (s.channel c).proofTicks = 0) ∨
        (i = .pulsePhaseEnd c ∧ ((s.channel c).wave = .onPhase ∨ (s.channel c).wave = .offPhase) ∧
          (s.channel c).phaseTicks = 0) ∨
        ∃ k minutes, i = .timedExpiry c k.source ∧ k ∈ s.list c ∧ k.lifetime = .timed minutes 0 := by
  have hif : ∀ {q : Prop} [Decidable q] {x : Instr}, i ∈ (if q then [x] else []) ↔ i = x ∧ q := fun {q _ x} => by
    by_cases hq : q <;> simp [hq]
  simp only [State.channelDue, List.mem_append, hif, ChannelRun.guardDue, ChannelRun.proofDue, ChannelRun.phaseDue,
    decide_eq_true_eq, List.mem_map, List.mem_filter, Lifetime.isDue_iff, or_assoc]
  refine or_congr_right (or_congr_right (or_congr_right ?_))
  constructor
  · rintro ⟨k, ⟨hk, minutes, hl⟩, rfl⟩
    exact ⟨k, minutes, rfl, hk, hl⟩
  · rintro ⟨k, minutes, rfl, hk, hl⟩
    exact ⟨k, ⟨hk, minutes, hl⟩, rfl⟩

theorem State.debounceDue_iff {k : InputNo} :
    s.debounceDue k = true ↔ (s.input k).debounceLeft = some 0 ∧ s.pins.inputs[k] ≠ (s.input k).stable := by
  simp [State.debounceDue]

theorem State.eventDue_iff {i : SlotNo} :
    s.eventDue i = true ↔ ∃ e, (s.slot i).entry = some e ∧ e.state = .active ∧ e.defn.kind.isEvent = true ∧
      e.interrupted = false ∧ e.remSeconds = 0 := by
  unfold State.eventDue
  cases (s.slot i).entry with
  | none => simp
  | some e =>
    simp only [Entry.counts, Entry.restartPending, Bool.and_eq_true, Bool.not_eq_true', Bool.and_eq_false_iff, decide_eq_true_eq,
      decide_eq_false_iff_not, Option.some.injEq, exists_eq_left']
    tauto

theorem State.dueExpiries_of_not_running (h : s.running = false) : s.dueExpiries = [] := by
  simp [State.dueExpiries, h]

theorem mem_dueExpiries {i : Instr} (h : s.running = true) :
    i ∈ s.dueExpiries ↔
      (∃ c, i ∈ s.channelDue c) ∨
        (∃ k, i = .debounceExpiry k ∧ (s.input k).debounceLeft = some 0 ∧ s.pins.inputs[k] ≠ (s.input k).stable) ∨
        ∃ j e, i = .eventCountdownEnd j ∧ (s.slot j).entry = some e ∧ e.state = .active ∧ e.defn.kind.isEvent = true ∧
          e.interrupted = false ∧ e.remSeconds = 0 := by
  simp only [State.dueExpiries, h, if_true, List.mem_append, List.mem_flatMap, List.mem_map, List.mem_filter, List.mem_finRange,
    true_and, State.debounceDue_iff, State.eventDue_iff, mem_allChannels, or_assoc]
  refine or_congr_right (or_congr (exists_congr fun k => ?_) (exists_congr fun j => ?_))
  · exact ⟨fun ⟨hd, he⟩ => ⟨he.symm, hd⟩, fun ⟨he, hd⟩ => ⟨hd, he.symm⟩⟩
  · exact ⟨fun ⟨⟨e, hd⟩, he⟩ => ⟨e, he.symm, hd⟩, fun ⟨e, he, hd⟩ => ⟨⟨e, hd⟩, he.symm⟩⟩

theorem State.supply_of_running (h : s.running = true) : s.supply = .normal ∧ s.inReset = false := by
  simpa [State.running] using h

/-- A part that does not run has the second boundary alone to wait for. -/
theorem State.dueRows_of_not_running (h : s.running = false) :
    s.dueRows = if s.supply ≠ .cold ∧ s.timebase.state = .running ∧ 100 ≤ s.timebase.subSecond then [.secondBoundary] else [] := by
  unfold State.dueRows
  rw [State.dueExpiries_of_not_running h, List.nil_append]
  exact if_congr (secondDue_iff s) rfl rfl

theorem mem_dueRows_of_running {i : Instr} (h : s.running = true) :
    i ∈ s.dueRows ↔
      (i = .secondBoundary ∧ s.timebase.state = .running ∧ 100 ≤ s.timebase.subSecond) ∨
      (∃ c, i = .guardExpiry c ∧ (s.channel c).state = .guarding ∧ (s.channel c).guard = 0) ∨
      (∃ c, i = .proofTimerExpiry c ∧ ((s.channel c).proof = .settling ∨ (s.channel c).proof = .disagree) ∧
        (s.channel c).proofTicks = 0) ∨
      (∃ c, i = .pulsePhaseEnd c ∧ ((s.channel c).wave = .onPhase ∨ (s.channel c).wave = .offPhase) ∧
        (s.channel c).phaseTicks = 0) ∨
      (∃ c k minutes, i = .timedExpiry c k.source ∧ k ∈ s.list c ∧ k.lifetime = .timed minutes 0) ∨
      (∃ k, i = .debounceExpiry k ∧ (s.input k).debounceLeft = some 0 ∧ s.pins.inputs[k] ≠ (s.input k).stable) ∨
      ∃ j e, i = .eventCountdownEnd j ∧ (s.slot j).entry = some e ∧ e.state = .active ∧ e.defn.kind.isEvent = true ∧
        e.interrupted = false ∧ e.remSeconds = 0 := by
  have hcold : s.supply ≠ .cold := by
    rw [(State.supply_of_running h).1]
    simp
  rw [mem_dueRows, or_comm]
  simp only [mem_dueExpiries h, mem_channelDue, exists_or, secondDue_iff, hcold, ne_eq, not_false_eq_true, true_and, or_assoc]

/-! ### The tick -/

/-- Where the boundary of a second is not due, the divider has room for one more tick. -/
theorem Timebase.tick_fields {tb : Timebase} (h : ¬(tb.state = .running ∧ 100 ≤ tb.subSecond)) :
    tb.tick.state = tb.state ∧ tb.tick.tickPhase = (if tb.tickPhase < 9 then tb.tickPhase + 1 else 0) ∧
      tb.tick.subSecond = if tb.state = .running then tb.subSecond + 1 else tb.subSecond := by
  refine ⟨rfl, rfl, ?_⟩
  unfold Timebase.tick
  dsimp only
  by_cases hr : tb.state = .running
  · rw [if_pos hr, if_pos ⟨hr, by_contra fun hlt => h ⟨hr, by omega⟩⟩]
  · rw [if_neg hr, if_neg fun hx => hr hx.1]

theorem State.not_due_of_dueRows (hc : s.supply ≠ .cold) (h : s.dueRows = []) :
    ¬(s.timebase.state = .running ∧ 100 ≤ s.timebase.subSecond) := fun ⟨hr, hs⟩ => by
  have : Instr.secondBoundary ∈ s.dueRows := mem_dueRows.2 (.inr ⟨rfl, (secondDue_iff s).2 ⟨hc, hr, hs⟩⟩)
  rw [h] at this
  cases this

theorem State.tick_of_cold (h : s.supply = .cold) : s.tick = s := by
  unfold State.tick
  rw [if_pos h]

theorem State.tick_of_resting (hr : s.running = false) (hc : s.supply ≠ .cold) : s.tick = s.withTimebase s.timebase.tick := by
  unfold State.tick
  rw [if_neg hc]
  exact if_neg (by simp [hr])

theorem State.tick_of_running (hr : s.running = true) :
    s.tick =
      { s with
        timebase := s.timebase.tick
        channels := s.channels.map fun run => run.tick (decide (9 ≤ s.timebase.tickPhase))
        inputs := s.inputs.map InputRun.tick } := by
  unfold State.tick
  rw [if_neg (by rw [(State.supply_of_running hr).1]; simp)]
  exact if_pos hr

/-- Settles O2: the due rows are collected channel by channel, and with none due each timer is counted by its own tick. -/
theorem idleStepCountsTicks : Obligations.IdleStepCountsTicks := by
  unfold Obligations.IdleStepCountsTicks
  intro s hq
  refine ⟨fun hd => ?due, State.dueRows_of_not_running, fun hr i => mem_dueRows_of_running hr, fun hr hd => ?rests, fun hr hd => ?runs⟩
  case due =>
    rcases idleStep_cases s with ⟨h, -⟩ | ⟨-, h⟩
    · exact absurd h hd
    · rw [step_of_empty hq, h]
  all_goals
    have hstep : step s = .next s.tick := by
      rcases idleStep_cases s with ⟨-, h⟩ | ⟨h, -⟩
      · rw [step_of_empty hq, h]
      · exact absurd hd h
    refine ⟨s.tick, hstep, ?_⟩
  case rests =>
    by_cases hc : s.supply = .cold
    · rw [State.tick_of_cold hc]
      exact ⟨rfl, rfl, fun _ => rfl, fun h => absurd hc h⟩
    · obtain ⟨h1, h2, h3⟩ := Timebase.tick_fields (State.not_due_of_dueRows hc hd)
      rw [State.tick_of_resting hr hc]
      exact ⟨rfl, h1, fun h => absurd h hc, fun _ => ⟨h2, h3⟩⟩
  case runs =>
    have hc : s.supply ≠ .cold := by
      rw [(State.supply_of_running hr).1]
      simp
    obtain ⟨h1, h2, h3⟩ := Timebase.tick_fields (State.not_due_of_dueRows hc hd)
    rw [State.tick_of_running hr]
    refine ⟨rfl, h1, fun c => ?_, fun k => ?_, h2, h3⟩
    · simp [State.channel, ChannelRun.tick]
    · simp [State.input, InputRun.tick]

/-! ### The reset state -/

theorem State.reset_slot (i : SlotNo) : State.reset.slot i = { gen := 0, entry := none } := by
  simp [State.slot, State.reset, Slot.cold]

theorem State.reset_list (c : Chan) : State.reset.list c = [] := by
  simp [State.list, State.reset, Arbiter.reset]

theorem State.reset_config (c : Chan) : State.reset.config c = ChannelConfig.cold := by
  simp [State.config, State.reset]

theorem State.reset_channel (c : Chan) : State.reset.channel c = ChannelRun.afterReset ChannelConfig.cold := by
  simp [State.channel, State.reset]
  rfl

theorem State.reset_binding (k : InputNo) : State.reset.binding k = Binding.cold := by
  simp [State.binding, State.reset]

theorem State.reset_input (k : InputNo) : State.reset.input k = InputRun.atLevel true := by
  simp [State.input, State.reset]

theorem State.reset_sound : State.reset.Sound := by
  have hrun : State.reset.running = true := rfl
  refine ⟨fun c => ?_, DateSet.cold_sound _ rfl, .of_invalid rfl, fun c => ?_, fun i e he => ?_, .of_running hrun fun i hi => ?_,
    .of_running hrun, fun _ _ => ⟨State.reset_list, fun i e he => ?_, rfl, rfl, rfl⟩, ?_, fun w hw => by cases hw⟩
  · rw [State.reset_list]
    exact listSound_nil
  · rw [State.reset_config, State.reset_channel]
    exact ChannelRun.afterReset_sound _
  · rw [State.reset_slot] at he
    cases he
  · exact absurd (by simp [State.reset, Attention.reset]) hi
  · rw [State.reset_slot] at he
    cases he
  · refine .of_empty State.reset_list fun i e he => ?_
    rw [State.reset_slot] at he
    cases he

/-- Settles O4: the values stand in the state's definition, and with no claim, entry or record it is sound. -/
theorem resetValues : Obligations.ResetValues := by
  unfold Obligations.ResetValues
  refine ⟨State.reset_slot, rfl, rfl, fun c => ⟨State.reset_list c, ?_⟩, fun c => ⟨State.reset_config c, ?_, ?_⟩,
    fun k => ⟨State.reset_binding k, ?_, ?_, ?_⟩, rfl, rfl, rfl, fun p => ?_, rfl, rfl, rfl, State.reset_sound⟩
  · simp [State.lastTop, State.reset, Arbiter.reset]
  · rw [State.reset_channel]
    rfl
  · rw [State.reset_channel]
    rfl
  · rw [State.reset_input]
    rfl
  · rw [State.reset_input]
    rfl
  · rw [State.reset_input]
    rfl
  · cases p <;> exact ⟨rfl, rfl, rfl, rfl⟩

/-- A cold start and the main reset that VMAIN's appearance causes, still held (R180, R181). -/
theorem State.coldStart_beginReset (s : State) :
    (s.coldStart .normal).beginReset =
      { State.reset with
        inReset := true, pins := s.pins, inputs := s.pins.inputs.map InputRun.atLevel
        panelBus := { PanelBus.reset with address := s.panelBus.address }
        attention := Attention.reset, pending := s.pending } := by
  have ht : (Vector.replicate 256 Slot.cold).map Slot.clearHeld = Vector.replicate 256 Slot.cold := by simp [Slot.clearHeld, Slot.cold]
  have hc : (Vector.replicate 24 ChannelConfig.cold).map ChannelRun.afterReset = Vector.replicate 24 ChannelRun.cold := by
    rw [Vector.map_replicate]
    rfl
  unfold State.beginReset State.coldStart State.discardVolatile State.withTable State.recomputeClass State.withDates
  dsimp only
  rw [ht, hc]
  rfl

theorem State.raiseInvalid_level (h : s.attention.irqMode = .level) :
    s.raiseInvalid = s.withAttention { s.attention with invalidCause := true, pulse := false } := by
  simp [State.raiseInvalid, State.irqFollow, State.withAttention, h]

/-- 2000-01-01 is a Saturday, and no record says otherwise (R37). -/
theorem State.reset_recomputeClass : State.reset.recomputeClass.dates = State.reset.dates := by
  decide

theorem State.released_table (s : State) (adsel : Bool) : (s.released adsel).table = s.table := rfl

/-- A restart with the clock INVALID, while IRQN is in LEVEL mode. -/
theorem State.restart_level (hv : s.clock.valid = false) (hm : s.attention.irqMode = .level) :
    s.restart =
      { s with
        table := (s.table.map Slot.freeSpent).map Slot.disarm
        attention := { s.attention with invalidCause := true, pulse := false } } := by
  unfold State.restart
  rw [if_neg (by simp [hv])]
  exact State.raiseInvalid_level hm

/-- A power-up from COLD makes the reset state but for what the pins give (R180 to R182, R195). -/
theorem State.coldStart_powerUp (s : State) (adsel : Bool) :
    (s.coldStart .normal).powerUp adsel =
      { State.reset with
        inReset := s.pins.rstnLow, pins := s.pins, inputs := s.pins.inputs.map InputRun.atLevel
        panelBus :=
          { PanelBus.reset with address := if s.pins.rstnLow then s.panelBus.address else panelAddress adsel }
        attention := { Attention.reset with invalidCause := !s.pins.rstnLow }, pending := s.pending } := by
  have ht : ((Vector.replicate 256 Slot.cold).map Slot.freeSpent).map Slot.disarm = Vector.replicate 256 Slot.cold := by
    simp [Slot.freeSpent, Slot.disarm, Slot.cold]
  unfold State.powerUp
  rw [State.coldStart_beginReset, show (s.coldStart .normal).pins.rstnLow = s.pins.rstnLow from rfl]
  cases hp : s.pins.rstnLow with
  | true => rfl
  | false =>
    rw [if_neg Bool.false_ne_true, State.endReset_eq]
    have hr := State.restart_level (s := State.released { State.reset with
      inReset := true, pins := s.pins, inputs := s.pins.inputs.map InputRun.atLevel
      panelBus := { PanelBus.reset with address := s.panelBus.address }
      attention := Attention.reset, pending := s.pending } adsel) rfl rfl
    rw [hr, State.released_table]
    dsimp only
    rw [show State.reset.table = Vector.replicate 256 Slot.cold from rfl, ht]
    congr 1
    exact State.reset_recomputeClass

/-- Settles O5: the cold start, the main reset and the restart overwrite every field that the pins do not give. -/
theorem firstPowerUpIsReset : Obligations.FirstPowerUpIsReset := by
  unfold Obligations.FirstPowerUpIsReset
  intro s hc hp hq
  show Host.Outcome.next (s.vmainReturns false) = _
  unfold State.vmainReturns
  rw [hc]
  dsimp only
  rw [State.coldStart_powerUp, hp, hq]
  have hi : Pins.powerUp.inputs.map InputRun.atLevel = State.reset.inputs := by
    simp [Pins.powerUp, State.reset]
  rw [hi]
  rfl

end Sys2Proof.Machine
end

section
/-! PROOFS. The calendar: the date after a date and the date before (sections 2.1 and 8.2). -/

namespace Sys2Proof.Machine

/-! ### Months (R151) -/

theorem monthLength_bounds {month : Nat} (h1 : 1 ≤ month) (h12 : month ≤ 12) (year : Nat) :
    28 ≤ monthLength year month ∧ monthLength year month ≤ 31 := by
  interval_cases month <;> simp [monthLength]
  split <;> simp

theorem Date.possible_iff {d : Date} :
    d.possible = true ↔ d.year ≤ 99 ∧ 1 ≤ d.month ∧ d.month ≤ 12 ∧ 1 ≤ d.day ∧ d.day ≤ monthLength d.year d.month := by
  simp [Date.possible]

/-- The days before December: eleven months, and the day that a leap year has more. -/
theorem daysBeforeMonth_december (year : Nat) : daysBeforeMonth year 12 = if year % 4 = 0 then 335 else 334 := by
  by_cases h : year % 4 = 0 <;> simp [daysBeforeMonth, monthLength, isLeap, h]

theorem daysBeforeMonth_succ {month : Nat} (h : 1 ≤ month) (year : Nat) :
    daysBeforeMonth year (month + 1) = daysBeforeMonth year month + monthLength year month := by
  obtain ⟨m, rfl⟩ := Nat.exists_eq_add_of_le' h
  rfl

/-! ### The next date -/

/-- Where in its month and year a possible date stands, and the next date with it. -/
inductive Date.Follows : Date → Date → Prop where
  | day (y m n : Nat) (h1 : 1 ≤ n) (h : n < monthLength y m) : Date.Follows ⟨y, m, n⟩ ⟨y, m, n + 1⟩
  | month (y m : Nat) (h1 : 1 ≤ m) (h : m < 12) : Date.Follows ⟨y, m, monthLength y m⟩ ⟨y, m + 1, 1⟩
  | year (y : Nat) (h : y < 99) : Date.Follows ⟨y, 12, 31⟩ ⟨y + 1, 1, 1⟩
  | century : Date.Follows ⟨99, 12, 31⟩ ⟨0, 1, 1⟩

theorem Date.next_follows {d : Date} (h : d.possible = true) : Date.Follows d d.next := by
  obtain ⟨y, m, n⟩ := d
  obtain ⟨hy, hm1, hm12, hn1, hn⟩ := Date.possible_iff.1 h
  dsimp only at hy hm1 hm12 hn1 hn
  unfold Date.next
  dsimp only
  split
  · next hlt => exact .day y m n hn1 hlt
  · next hlt =>
    obtain rfl : n = monthLength y m := by omega
    split
    · next hm => exact .month y m hm1 hm
    · next hm =>
      obtain rfl : m = 12 := by omega
      split
      · next hyl => exact .year y hyl
      · next hyl =>
        obtain rfl : y = 99 := by omega
        exact .century

theorem Date.previous_follows {d : Date} (h : d.possible = true) : Date.Follows d.previous d := by
  obtain ⟨y, m, n⟩ := d
  obtain ⟨hy, hm1, hm12, hn1, hn⟩ := Date.possible_iff.1 h
  dsimp only at hy hm1 hm12 hn1 hn
  unfold Date.previous
  dsimp only
  split
  · next hlt =>
    obtain ⟨k, rfl⟩ := Nat.exists_eq_add_of_le' hn1
    exact .day y m k (by omega) (by omega)
  · next hlt =>
    obtain rfl : n = 1 := by omega
    split
    · next hm =>
      obtain ⟨k, rfl⟩ := Nat.exists_eq_add_of_le' hm1
      exact .month y k (by omega) (by omega)
    · next hm =>
      obtain rfl : m = 1 := by omega
      split
      · next hyl =>
        obtain ⟨k, rfl⟩ := Nat.exists_eq_add_of_le' (show 1 ≤ y from hyl)
        exact .year k (by omega)
      · next hyl =>
        obtain rfl : y = 0 := by omega
        exact .century

theorem Date.Follows.next_eq {d e : Date} (h : Date.Follows d e) : d.next = e := by
  cases h with
  | day y m n _ h => simp [Date.next, h]
  | month y m _ h => simp [Date.next, h]
  | year y h => simp [Date.next, monthLength, h]
  | century => rfl

theorem Date.Follows.previous_eq {d e : Date} (h : Date.Follows d e) : e.previous = d := by
  cases h with
  | day y m n h1 _ => simp [Date.previous, show 1 < n + 1 by omega]
  | month y m h1 _ => simp [Date.previous, show 1 < m + 1 by omega]
  | year y _ => simp [Date.previous]
  | century => rfl

theorem Date.Follows.possible {d e : Date} (h : Date.Follows d e) (hd : d.possible = true) : e.possible = true := by
  rw [Date.possible_iff] at hd ⊢
  cases h with
  | day y m n _ h => exact ⟨hd.1, hd.2.1, hd.2.2.1, by dsimp only; omega, h⟩
  | month y m _ h =>
    refine ⟨hd.1, by dsimp only; omega, h, Nat.le_refl 1, ?_⟩
    have := (monthLength_bounds (month := m + 1) (by omega) h y).1
    dsimp only
    omega
  | year y h => exact ⟨h, Nat.le_refl 1, by simp, Nat.le_refl 1, by simp [monthLength]⟩
  | century => decide

/-- But for the wrap of the century the next date is one day later, and later in calendar order. -/
theorem Date.Follows.counts {d e : Date} (h : Date.Follows d e) (hd : d.possible = true)
    (hw : d ≠ { year := 99, month := 12, day := 31 }) : e.dayNumber = d.dayNumber + 1 ∧ d.before e = true := by
  obtain ⟨hy, hm1, hm12, hn1, hn⟩ := Date.possible_iff.1 hd
  have hlen := (monthLength_bounds hm1 hm12 d.year).2
  have hbefore : d.before e = true ↔ d.key < e.key := by simp [Date.before]
  rw [hbefore]
  unfold Date.dayNumber Date.key
  cases h with
  | day y m n h1 h => exact ⟨by dsimp only; omega, by dsimp only; omega⟩
  | month y m h1 h =>
    dsimp only at hlen hn1 ⊢
    rw [daysBeforeMonth_succ h1]
    exact ⟨by omega, by omega⟩
  | year y h =>
    dsimp only
    rw [daysBeforeMonth_december, show daysBeforeMonth (y + 1) 1 = 0 from rfl]
    refine ⟨?_, by omega⟩
    split <;> omega
  | century => exact absurd rfl hw

theorem Date.weekday_succ {d e : Date} (h : e.dayNumber = d.dayNumber + 1) : e.weekday = d.weekday + 1 := by
  apply Fin.ext
  rw [Fin.val_add]
  simp only [Date.weekday, h]
  omega

/-- Settles O11, by where in its month and year the date stands. -/
theorem nextDateIsNextDay : Obligations.NextDateIsNextDay := by
  unfold Obligations.NextDateIsNextDay
  refine ⟨fun d hd => ?_, rfl, by decide, by decide⟩
  have hn := Date.next_follows hd
  refine ⟨hn.possible hd, hn.previous_eq, (Date.previous_follows hd).next_eq, fun hw => ?_⟩
  obtain ⟨hnum, hb⟩ := hn.counts hd hw
  exact ⟨hnum, hb, Date.weekday_succ hnum⟩

end Sys2Proof.Machine
end

section
/-! PROOFS. An entry descriptor reads back as its definition (sections 12.2 to 12.4). -/

namespace Sys2Proof.Machine

/-! ### Numbers, dates and times in bytes (R205, R206) -/

theorem toNat_byteOf {n : Nat} (h : n < 256) : (byteOf n).toNat = n := by
  rw [byteOf, BitVec.toNat_ofNat, Nat.mod_eq_of_lt h]

/-- The hour and the minute of a possible time fit a byte each. -/
theorem DayMinute.lt_of_possible {t : DayMinute} (h : t.possible = true) : t.hour < 256 ∧ t.minute < 256 := by
  simp only [DayMinute.possible, decide_eq_true_eq] at h
  omega

theorem dayMinuteAt_bytes {t : DayMinute} (h : t.possible = true) {bytes : List Byte} {i : Nat} {x y : Byte}
    (ht : t.bytes = [x, y]) (hx : byteAt bytes i = x) (hy : byteAt bytes (i + 1) = y) : dayMinuteAt bytes i = t := by
  obtain ⟨h1, h2⟩ := DayMinute.lt_of_possible h
  simp only [DayMinute.bytes, List.cons.injEq, and_true] at ht
  simp only [dayMinuteAt, natAt, hx, hy, ← ht.1, ← ht.2, toNat_byteOf h1, toNat_byteOf h2]

theorem Date.lt_of_possible {d : Date} (h : d.possible = true) : d.year < 256 ∧ d.month < 256 ∧ d.day < 256 := by
  obtain ⟨hy, hm1, hm12, -, hn⟩ := Date.possible_iff.1 h
  have := (monthLength_bounds hm1 hm12 d.year).2
  omega

theorem dateAt_bytes {d : Date} (h : d.possible = true) {bytes : List Byte} {i : Nat} {x y z : Byte}
    (hd : d.bytes = [x, y, z]) (hx : byteAt bytes i = x) (hy : byteAt bytes (i + 1) = y) (hz : byteAt bytes (i + 2) = z) :
    dateAt bytes i = d := by
  obtain ⟨h1, h2, h3⟩ := Date.lt_of_possible h
  simp only [Date.bytes, List.cons.injEq, and_true] at hd
  simp only [dateAt, natAt, hx, hy, hz, ← hd.1, ← hd.2.1, ← hd.2.2, toNat_byteOf h1, toNat_byteOf h2, toNat_byteOf h3]

/-! ### The parts of a descriptor (R12, R207) -/

theorem readKind_bytes {k : Kind} {start : DayMinute} {bytes : List Byte} {x y : Byte}
    (hs : match k with
      | .span stop => stop.possible = true ∧ stop ≠ start
      | .event duration => 1 ≤ duration ∧ duration ≤ 3600)
    (hk : k.bytes = [x, y]) (hx : byteAt bytes 7 = x) (hy : byteAt bytes 8 = y) : readKind k.isEvent start bytes = some k := by
  cases k with
  | span stop =>
    have ht := dayMinuteAt_bytes hs.1 hk hx hy
    simp [readKind, Kind.isEvent, ht, hs.1, hs.2]
  | event duration =>
    obtain ⟨h1, h2⟩ := hs
    simp only [Kind.bytes, bytes2, List.cons.injEq, and_true] at hk
    have hn : natAt2 bytes 7 = duration := by
      simp only [natAt2, natAt, hx, hy, ← hk.1, ← hk.2, byteOf, BitVec.toNat_ofNat]
      omega
    rw [readKind, if_pos (show (Kind.event duration).isEvent = true from rfl), hn, if_neg (by omega)]

theorem readAction_bytes {a : Action} {w x y z : Byte}
    (hs : match a with
      | .off => True
      | .on => True
      | .pulse shape => shape.onWidth ≠ 0 ∧ shape.offWidth ≠ 0)
    (ha : a.bytes = [w, x, y, z]) : readAction w x y z = some a := by
  cases a with
  | off =>
    cases ha
    rfl
  | on =>
    cases ha
    rfl
  | pulse shape =>
    cases ha
    have hz : ¬(shape.onWidth = 0 ∨ shape.offWidth = 0) := fun h => h.elim hs.1 hs.2
    rw [readAction, if_neg (by decide), if_neg (by decide), if_pos rfl, if_neg hz]

theorem readOptionalDate_bytes {d : Option Date} {bytes : List Byte} {i : Nat} {x y z : Byte}
    (hs : ∀ e, d = some e → e.possible = true) (hd : optionalDateBytes d = [x, y, z]) (hx : byteAt bytes i = x)
    (hy : byteAt bytes (i + 1) = y) (hz : byteAt bytes (i + 2) = z) : readOptionalDate d.isSome (dateAt bytes i) = some d := by
  cases d with
  | none => rfl
  | some e =>
    rw [dateAt_bytes (hs e rfl) hd hx hy hz]
    simp [readOptionalDate, hs e rfl]

theorem readBudget_bytes {b : Option Byte} (h : b ≠ some 0) : readBudget b.isSome (b.getD 0) = some b := by
  cases b with
  | none => rfl
  | some n =>
    have hn : n ≠ 0 := fun e => h (by rw [e])
    exact (if_pos rfl).trans (if_neg hn)

theorem readDaySet_bytes {d : BitVec 10} (h : d ≠ 0) : readDaySet (byteOf (d.toNat % 128)) (byteOf (d.toNat / 128)) = some d := by
  have hd : d.toNat < 1024 := d.isLt
  have hne : d.toNat ≠ 0 := fun e => h (BitVec.eq_of_toNat_eq e)
  have hl : (byteOf (d.toNat % 128)).toNat = d.toNat % 128 := toNat_byteOf (by omega)
  have hh : (byteOf (d.toNat / 128)).toNat = d.toNat / 128 := toNat_byteOf (by omega)
  have hz : ¬(byteOf (d.toNat % 128) = 0 ∧ byteOf (d.toNat / 128) = 0) := fun ⟨e1, e2⟩ => by
    rw [e1] at hl
    rw [e2] at hh
    have h0 : BitVec.toNat (0 : Byte) = 0 := rfl
    omega
  rw [readDaySet, if_pos ⟨by omega, by omega, hz⟩, hl, hh, Nat.mod_add_div' d.toNat 128]
  simp

theorem readNotify_bytes (n : BitVec 5) : readNotify (byteOf n.toNat) = some n := by
  have hn : n.toNat < 32 := n.isLt
  rw [readNotify, toNat_byteOf (by omega), if_pos (by omega)]
  simp

/-- The byte of four flags holds each in its bit. -/
theorem flags4_getLsbD (a b c d : Bool) :
    let x := flagBit a 0 ||| flagBit b 1 ||| flagBit c 2 ||| flagBit d 3
    x.getLsbD 0 = a ∧ x.getLsbD 1 = b ∧ x.getLsbD 2 = c ∧ x.getLsbD 3 = d := by
  revert a b c d
  decide

theorem flags3_getLsbD (a b c : Bool) :
    let x := flagBit a 0 ||| flagBit b 1 ||| flagBit c 2
    x.getLsbD 0 = a ∧ x.getLsbD 1 = b ∧ x.getLsbD 2 = c := by
  revert a b c
  decide

theorem Kind.bytes_eq (k : Kind) : ∃ x y, k.bytes = [x, y] := by
  cases k <;> exact ⟨_, _, rfl⟩

theorem Action.bytes_eq (a : Action) : ∃ w x y z, a.bytes = [w, x, y, z] := by
  cases a <;> exact ⟨_, _, _, _, rfl⟩

theorem optionalDateBytes_eq (d : Option Date) : ∃ x y z, optionalDateBytes d = [x, y, z] := by
  cases d <;> exact ⟨_, _, _, rfl⟩

/-- The fixed part of a descriptor, byte by byte, and the label after it. -/
theorem Definition.bytes_eq {d : Definition} {k0 k1 a0 a1 a2 a3 f0 f1 f2 u0 u1 u2 : Byte} (hk : d.kind.bytes = [k0, k1])
    (ha : d.action.bytes = [a0, a1, a2, a3]) (hf : optionalDateBytes d.fromDate = [f0, f1, f2])
    (hu : optionalDateBytes d.untilDate = [u0, u1, u2]) :
    d.bytes =
      [flagBit d.kind.isEvent 0 ||| flagBit d.catchUp 1 ||| flagBit d.autofree 2 ||| flagBit d.guarded 3,
        byteOf d.channel.val, byteOf d.priority, byteOf (d.daySet.toNat % 128), byteOf (d.daySet.toNat / 128),
        byteOf d.start.hour, byteOf d.start.minute, k0, k1, a0, a1, a2, a3,
        flagBit d.fromDate.isSome 0 ||| flagBit d.untilDate.isSome 1 ||| flagBit d.budget.isSome 2,
        f0, f1, f2, u0, u1, u2, d.budget.getD 0, byteOf d.notify.toNat, byteOf d.label.length] ++ d.label := by
  rw [Definition.bytes, hk, ha, hf, hu]
  rfl

/-- The label fits where its length byte and the payload's own length agree. -/
theorem labelFits_append {pre label : List Byte} (hp : pre.length = 23) (hn : natAt (pre ++ label) 22 = label.length)
    (hl : label.length ≤ Config.maxLabel) (hc : label.all labelChar = true) : labelFits (pre ++ label) = true := by
  have hd : (pre ++ label).drop 23 = label := by rw [← hp, List.drop_left]
  simp only [labelFits, hn, hd, hc, List.length_append, hp, Bool.and_true, decide_eq_true_eq]
  exact ⟨Nat.le_add_right _ _, hl, trivial⟩

/-- Settles O8: each field is read from its own bytes. -/
theorem descriptorRoundTrip : Obligations.DescriptorRoundTrip := by
  unfold Obligations.DescriptorRoundTrip
  intro d hd
  obtain ⟨hp, hday, hstart, hkind, haction, hfrom, huntil, horder, hbudget, hlen, hlabel⟩ := hd
  obtain ⟨k0, k1, hk⟩ := d.kind.bytes_eq
  obtain ⟨a0, a1, a2, a3, ha⟩ := d.action.bytes_eq
  obtain ⟨f0, f1, f2, hf⟩ := optionalDateBytes_eq d.fromDate
  obtain ⟨u0, u1, u2, hu⟩ := optionalDateBytes_eq d.untilDate
  obtain ⟨g0, g1, g2, g3⟩ := flags4_getLsbD d.kind.isEvent d.catchUp d.autofree d.guarded
  obtain ⟨o0, o1, o2⟩ := flags3_getLsbD d.fromDate.isSome d.untilDate.isSome d.budget.isSome
  rw [Definition.bytes_eq hk ha hf hu]
  generalize hpre : [flagBit d.kind.isEvent 0 ||| flagBit d.catchUp 1 ||| flagBit d.autofree 2 ||| flagBit d.guarded 3,
        byteOf d.channel.val, byteOf d.priority, byteOf (d.daySet.toNat % 128), byteOf (d.daySet.toNat / 128),
        byteOf d.start.hour, byteOf d.start.minute, k0, k1, a0, a1, a2, a3,
        flagBit d.fromDate.isSome 0 ||| flagBit d.untilDate.isSome 1 ||| flagBit d.budget.isSome 2,
        f0, f1, f2, u0, u1, u2, d.budget.getD 0, byteOf d.notify.toNat, byteOf d.label.length] = pre
  have hlen' : d.label.length ≤ 12 := hlen
  have hfits : labelFits (pre ++ d.label) = true := by
    subst hpre
    exact labelFits_append rfl (toNat_byteOf (by omega)) hlen hlabel
  have hdrop : (pre ++ d.label).drop 23 = d.label := by
    subst hpre
    rfl
  have hchan : natAt (pre ++ d.label) 1 = d.channel.val := by
    subst hpre
    exact toNat_byteOf (d.channel.isLt.trans (by decide))
  have hprio : natAt (pre ++ d.label) 2 = d.priority := by
    subst hpre
    exact toNat_byteOf (by omega)
  have htime : dayMinuteAt (pre ++ d.label) 5 = d.start := by
    subst hpre
    exact dayMinuteAt_bytes hstart rfl rfl rfl
  have hkind' : readKind d.kind.isEvent d.start (pre ++ d.label) = some d.kind := by
    subst hpre
    exact readKind_bytes hkind hk rfl rfl
  have hfrom' : readOptionalDate d.fromDate.isSome (dateAt (pre ++ d.label) 14) = some d.fromDate := by
    subst hpre
    exact readOptionalDate_bytes hfrom hf rfl rfl rfl
  have huntil' : readOptionalDate d.untilDate.isSome (dateAt (pre ++ d.label) 17) = some d.untilDate := by
    subst hpre
    exact readOptionalDate_bytes huntil hu rfl rfl rfl
  have hbytes : byteAt (pre ++ d.label) 0 = flagBit d.kind.isEvent 0 ||| flagBit d.catchUp 1 ||| flagBit d.autofree 2 |||
        flagBit d.guarded 3 ∧
      byteAt (pre ++ d.label) 3 = byteOf (d.daySet.toNat % 128) ∧ byteAt (pre ++ d.label) 4 = byteOf (d.daySet.toNat / 128) ∧
      byteAt (pre ++ d.label) 9 = a0 ∧ byteAt (pre ++ d.label) 10 = a1 ∧ byteAt (pre ++ d.label) 11 = a2 ∧
      byteAt (pre ++ d.label) 12 = a3 ∧
      byteAt (pre ++ d.label) 13 = flagBit d.fromDate.isSome 0 ||| flagBit d.untilDate.isSome 1 ||| flagBit d.budget.isSome 2 ∧
      byteAt (pre ++ d.label) 20 = d.budget.getD 0 ∧ byteAt (pre ++ d.label) 21 = byteOf d.notify.toNat := by
    subst hpre
    exact ⟨rfl, rfl, rfl, rfl, rfl, rfl, rfl, rfl, rfl, rfl⟩
  obtain ⟨b0, b3, b4, b9, b10, b11, b12, b13, b20, b21⟩ := hbytes
  unfold readDescriptor
  rw [hfits, if_neg (by simp), dif_pos (by rw [hchan]; exact d.channel.isLt), hprio, htime,
    if_neg (by rw [hstart]; simp only [Bool.not_true, Bool.false_eq_true, or_false]; omega),
    b0, b3, b4, b9, b10, b11, b12, b13, b20, b21, g0, g1, g2, g3, o0, o1, o2, readDaySet_bytes hday, hkind', readAction_bytes haction ha, hfrom', huntil', readBudget_bytes hbudget, readNotify_bytes]
  dsimp only
  rw [if_pos horder]
  simp only [hchan, hdrop]

end Sys2Proof.Machine
end

section
/-! PROOFS. A request frame, byte by byte: what it makes of the slot, and what a transaction touches (sections 11.1, 11.2 and
12.1). -/

namespace Sys2Proof.Machine

variable {s t : State}

/-! ### Command codes (R208) -/

theorem commandOf_code (c : Command) : commandOf c.code = some c := by
  cases c <;> rfl

theorem commandOf_iff {b : Byte} {c : Command} : commandOf b = some c ↔ c.code = b := by
  constructor
  · intro h
    simpa using List.find?_some h
  · rintro rfl
    exact commandOf_code c

/-! ### The slot under the bytes of a frame (R188) -/

/-- What a byte makes of a slot: a frame in reception goes on, any other slot stays. -/
def PortSlot.afterByte (x : PortSlot) (b : Byte) : PortSlot :=
  match x with
  | .receiving bytes => frameState (bytes ++ [b])
  | .idle => .idle
  | .pending r => .pending r
  | .ready frame => .ready frame

theorem PortSlot.afterByte_of_not_receiving {x : PortSlot} (h : ∀ bytes, x ≠ .receiving bytes) (b : Byte) : x.afterByte b = x := by
  cases x with
  | receiving bytes => exact absurd rfl (h bytes)
  | _ => rfl

theorem PortSlot.foldl_of_not_receiving {x : PortSlot} (h : ∀ bytes, x ≠ .receiving bytes) (l : List Byte) :
    l.foldl PortSlot.afterByte x = x := by
  induction l with
  | nil => rfl
  | cons b l ih => rw [List.foldl_cons, PortSlot.afterByte_of_not_receiving h, ih]

/-- A frame whose every shorter part is still in reception ends as its last byte makes it. -/
theorem PortSlot.foldl_receiving {pre : List Byte} {b : Byte}
    (h : ∀ n, 0 < n → n ≤ pre.length → frameState (pre.take n) = .receiving (pre.take n)) :
    (pre ++ [b]).foldl PortSlot.afterByte (.receiving []) = frameState (pre ++ [b]) := by
  have key : pre.foldl PortSlot.afterByte (.receiving []) = .receiving pre := by
    induction pre using List.reverseRecOn with
    | nil => rfl
    | append_singleton l a ih =>
      rw [List.foldl_append, ih fun n hn hl => ?_]
      · have := h (l ++ [a]).length (by simp) (Nat.le_refl _)
        rw [List.take_length] at this
        exact this
      · have := h n hn (by rw [List.length_append]; exact Nat.le_add_right_of_le hl)
        rwa [List.take_append_of_le_length hl] at this
  rw [List.foldl_append, key]
  rfl

/-- Before the length byte a frame is in reception. -/
theorem frameState_short {frame : List Byte} (h : frame.length < 3) : frameState frame = .receiving frame := by
  unfold frameState
  rw [if_neg (by omega), if_neg (by omega)]

/-- A frame of at most 60 payload bytes is in reception until its last byte. -/
theorem frameState_take {tag code : Byte} {payload : List Byte} (hp : payload.length ≤ Config.maxPayload) {n : Nat}
    (hn : n ≤ payload.length + 3) :
    frameState ((frameBody tag code payload).take n) = .receiving ((frameBody tag code payload).take n) := by
  have hlen : ((frameBody tag code payload).take n).length = n := by
    rw [List.length_take, length_frameBody]
    omega
  by_cases h3 : 3 ≤ n
  · have h2 : natAt ((frameBody tag code payload).take n) 2 = payload.length := by
      obtain ⟨k, rfl⟩ := Nat.exists_eq_add_of_le' h3
      exact toNat_byteOf (Nat.lt_of_le_of_lt hp (by decide))
    unfold frameState
    rw [hlen, h2, if_neg (by omega), if_neg (by omega)]
  · exact frameState_short (by omega)

/-- A whole frame, closed by any byte, is judged at that byte. -/
theorem foldl_frame (tag code c : Byte) {payload : List Byte} (hp : payload.length ≤ Config.maxPayload) :
    (frameBody tag code payload ++ [c]).foldl PortSlot.afterByte (.receiving []) =
      wholeFrame (frameBody tag code payload ++ [c]) := by
  rw [PortSlot.foldl_receiving fun n _ hn => frameState_take hp (by rwa [length_frameBody] at hn)]
  have h2 : natAt (frameBody tag code payload ++ [c]) 2 = payload.length := toNat_byteOf (Nat.lt_of_le_of_lt hp (by decide))
  unfold frameState
  rw [h2, List.length_append, length_frameBody, if_neg (by omega), if_pos (by simp)]

/-- The judgement of a whole frame: its CRC, and then its code (R188, R191). -/
theorem wholeFrame_eq (tag code c : Byte) (payload : List Byte) :
    wholeFrame (frameBody tag code payload ++ [c]) =
      if crc (frameBody tag code payload) ≠ c then .ready (responseFrame tag (Reply.refusal .badFrame))
      else
        match commandOf code with
        | none => .ready (responseFrame tag (Reply.refusal .unknown))
        | some _ => .pending { tag := tag, code := code, payload := payload } := by
  have hlast : byteAt (frameBody tag code payload ++ [c]) ((frameBody tag code payload ++ [c]).length - 1) = c := by
    simp [byteAt]
  have hreq : requestOf (frameBody tag code payload ++ [c]) = { tag := tag, code := code, payload := payload } := by
    simp [requestOf, frameBody, byteAt]
  unfold wholeFrame
  rw [hlast, hreq, List.dropLast_concat]
  rfl

/-! ### What a transaction touches -/

/-- From `s` to `t` a transaction has touched the slot of port `p` and the outputs of the transaction. -/
def State.SlotWork (p : Port) (s t : State) : Prop :=
  (∃ slot shifted, t.port p = { s.port p with slot := slot, shifted := shifted }) ∧
    (p = .main → t.panelPort = s.panelPort ∧ t.panelBus = s.panelBus) ∧ (p = .panel → t.mainPort = s.mainPort) ∧
    t = { s with
      mainPort := t.mainPort, panelPort := t.panelPort, panelBus := t.panelBus
      attention := { s.attention with pulse := t.attention.pulse } }

theorem State.SlotWork.refl (p : Port) (s : State) : State.SlotWork p s s :=
  ⟨⟨_, _, rfl⟩, fun _ => ⟨rfl, rfl⟩, fun _ => rfl, rfl⟩

theorem State.SlotWork.trans {p : Port} {u : State} (h : State.SlotWork p s t) (k : State.SlotWork p t u) :
    State.SlotWork p s u := by
  obtain ⟨⟨a, b, h1⟩, h2, h3, h4⟩ := h
  obtain ⟨⟨c, d, k1⟩, k2, k3, k4⟩ := k
  refine ⟨⟨c, d, by rw [k1, h1]⟩, fun hp => ⟨(k2 hp).1.trans (h2 hp).1, (k2 hp).2.trans (h2 hp).2⟩,
    fun hp => (k3 hp).trans (h3 hp), ?_⟩
  rw [k4, h4]

theorem setPortSlot_slotWork (s : State) (p : Port) (x : PortSlot) : State.SlotWork p s (s.setPortSlot p x) := by
  cases p
  · exact ⟨⟨_, _, rfl⟩, fun _ => ⟨rfl, rfl⟩, nofun, rfl⟩
  · exact ⟨⟨_, _, rfl⟩, nofun, fun _ => rfl, rfl⟩

theorem byteTaken_slotWork (s : State) (p : Port) (acked : Bool) : State.SlotWork p s (s.byteTaken p acked) := by
  cases p
  · exact ⟨⟨_, _, rfl⟩, fun _ => ⟨rfl, rfl⟩, nofun, rfl⟩
  · exact ⟨⟨_, _, rfl⟩, nofun, fun _ => rfl, rfl⟩

@[simp] theorem State.byteTaken_slot (s : State) (p : Port) (acked : Bool) :
    ((s.byteTaken p acked).port p).slot = (s.port p).slot := by
  cases p <;> rfl

/-- A byte of a frame works on the slot as `PortSlot.afterByte` says, and on the outputs. -/
theorem frameByte_work (p : Port) (s : State) (b : Byte) :
    State.SlotWork p s (State.frameByte p s b) ∧ ((State.frameByte p s b).port p).slot = (s.port p).slot.afterByte b := by
  unfold State.frameByte
  split
  · next bytes h =>
    refine ⟨(setPortSlot_slotWork s p _).trans (byteTaken_slotWork _ p _), ?_⟩
    rw [State.byteTaken_slot, State.setPortSlot_port_self, h]
    rfl
  all_goals
    next h =>
      refine ⟨byteTaken_slotWork s p false, ?_⟩
      rw [State.byteTaken_slot, h]
      rfl

theorem foldl_frameByte_work (p : Port) (bytes : List Byte) (s : State) :
    State.SlotWork p s (bytes.foldl (State.frameByte p) s) ∧
      ((bytes.foldl (State.frameByte p) s).port p).slot = bytes.foldl PortSlot.afterByte (s.port p).slot := by
  induction bytes generalizing s with
  | nil => exact ⟨.refl p s, rfl⟩
  | cons b bytes ih =>
    obtain ⟨h1, h2⟩ := frameByte_work p s b
    obtain ⟨k1, k2⟩ := ih (State.frameByte p s b)
    exact ⟨h1.trans k1, by rw [List.foldl_cons, k2, h2, List.foldl_cons]⟩

theorem exec_requestFrame {p : Port} (ha : s.answers p = true) (bytes : List Byte) :
    exec (.requestFrame p bytes) s = .next (bytes.foldl (State.frameByte p) s) :=
  congrArg Host.Outcome.next (if_pos ha)

/-- What a frame makes of a slot in reception. -/
theorem exec_requestFrame_slot {p : Port} (ha : s.answers p = true) {old : List Byte} (hs : (s.port p).slot = .receiving old)
    {bytes : List Byte} {x : PortSlot} (hx : bytes.foldl PortSlot.afterByte (.receiving old) = x) :
    ∃ t, exec (.requestFrame p bytes) s = .next t ∧ (t.port p).slot = x := by
  refine ⟨_, exec_requestFrame ha bytes, ?_⟩
  rw [(foldl_frameByte_work p bytes s).2, hs, hx]

/-- The SUBMIT kind byte on an IDLE slot (R188). -/
theorem submitOn_idle {p : Port} (ha : s.answers p = true) (hs : (s.port p).slot = .idle) :
    State.SlotWork p s (s.submitOn p) ∧ ((s.submitOn p).port p).slot = .receiving [] := by
  have hk : s.submitKind p = s.withPort p { s.port p with slot := .receiving [] } := by
    unfold State.submitKind
    rw [hs]
  unfold State.submitOn
  rw [if_pos ha, hk]
  cases p
  · exact ⟨⟨⟨_, _, rfl⟩, fun _ => ⟨rfl, rfl⟩, nofun, rfl⟩, rfl⟩
  · exact ⟨⟨⟨_, _, rfl⟩, nofun, fun _ => rfl, rfl⟩, rfl⟩

theorem State.SlotWork.answers {p : Port} (h : State.SlotWork p s t) (ha : s.answers p = true) : t.answers p = true := by
  obtain ⟨⟨slot, shifted, hp⟩, -, -, hk⟩ := h
  obtain ⟨hr, hl⟩ := State.answers_iff.1 ha
  refine State.answers_iff.2 ⟨?_, by rw [hp]; exact hl⟩
  rw [hk]
  exact hr

/-- Settles O9: the bytes of a good frame keep the slot in reception until the last, which leaves the request. -/
theorem submittedRequestIsPending : Obligations.SubmittedRequestIsPending := by
  unfold Obligations.SubmittedRequestIsPending
  intro s p r ha hs hc hp
  obtain ⟨hw, hslot⟩ := submitOn_idle ha hs
  obtain ⟨hw', hslot'⟩ := foldl_frameByte_work p (requestFrame r) (s.submitOn p)
  have hpend : (((requestFrame r).foldl (State.frameByte p) (s.submitOn p)).port p).slot = .pending r := by
    obtain ⟨c, hc⟩ := Option.ne_none_iff_exists'.1 hc
    rw [hslot', hslot, requestFrame_eq, closeFrame, foldl_frame _ _ _ hp, wholeFrame_eq, if_neg (by simp), hc]
  obtain ⟨⟨slot, shifted, hport⟩, hmain, hpanel, hkept⟩ := hw.trans hw'
  refine ⟨_, _, rfl, hslot, exec_requestFrame (hw.answers ha) _, hpend, ?_, ?_, ?_, ?_, hmain, hpanel, hkept⟩
  · rw [hport]
  · rw [hport]
  · rw [hport]
  · rw [hport]
    exact (State.answers_iff.1 ha).2

/-- Settles O10: a frame is judged at its length byte or at its last, and what it leaves takes no more bytes. -/
theorem damagedOrUnknownFrame : Obligations.DamagedOrUnknownFrame := by
  unfold Obligations.DamagedOrUnknownFrame
  refine ⟨fun s p tag code n rest ha hs hn => exec_requestFrame_slot ha hs ?long,
    fun s p tag code c payload ha hs hp hc => exec_requestFrame_slot ha hs ?crc,
    fun s p r ha hs hp hc => exec_requestFrame_slot ha hs ?unknown, fun b c => commandOf_iff, ?codes⟩
  case long =>
    have h3 : frameState [tag, code, n] = .ready (responseFrame tag (Reply.refusal .badFrame)) := if_pos ⟨Nat.le_refl 3, hn⟩
    have hpre : [tag, code, n].foldl PortSlot.afterByte (.receiving []) = frameState [tag, code, n] :=
      PortSlot.foldl_receiving (pre := [tag, code]) fun k _ _ =>
        frameState_short (Nat.lt_of_le_of_lt (List.length_take_le' _ _) (by simp))
    rw [List.foldl_append, hpre, h3, PortSlot.foldl_of_not_receiving fun _ h => by cases h]
  case crc =>
    refine (foldl_frame tag code c hp).trans ?_
    rw [wholeFrame_eq, if_pos (show crc (frameBody tag code payload) ≠ c from Ne.symm hc)]
  case unknown =>
    rw [requestFrame_eq, closeFrame, foldl_frame _ _ _ hp, wholeFrame_eq, if_neg (by simp), hc]
  case codes => decide

end Sys2Proof.Machine
end

section
/-! PROOFS. The reads and the kind bytes of the two ports, and the clearing of a fault (O12, O14 to O18, O36). -/

namespace Sys2Proof.Machine

variable {s : State}

/-! ### One reasoning rule per transaction -/

/-- A FETCH of a response. -/
theorem State.fetchBytes_ready {p : Port} {frame : List Byte} (h : (s.port p).slot = .ready frame) (n : Nat) :
    s.fetchBytes p n =
      if frame.length ≤ n then
        (s.shiftOut p (frame.take n ++ List.replicate (n - frame.length) 0xFF)).setPortSlot p .idle
      else s.shiftOut p (frame.take n ++ List.replicate (n - frame.length) 0xFF) := by
  unfold State.fetchBytes
  rw [h]

/-- A FETCH while no response is ready. -/
theorem State.fetchBytes_not_ready {p : Port} (h : ∀ frame, (s.port p).slot ≠ .ready frame) (n : Nat) :
    s.fetchBytes p n = s.shiftOut p (List.take n (0xEE :: List.replicate (n - 1) 0xFF)) := by
  unfold State.fetchBytes
  split
  · next frame hs => exact absurd hs (h frame)
  · rfl
  · rfl
  · rfl

theorem exec_fetch_main (ha : s.answers .main = true) (hs : ∀ bytes, s.mainPort.slot ≠ .receiving bytes) (n : Nat) :
    exec (.fetch .main n) s = .next (s.fetchBytes .main n) := by
  have h : exec (.fetch .main n) s = .next ((s.endTransaction .main).fetchBytes .main n) :=
    congrArg Host.Outcome.next (if_pos ha)
  rw [h, State.endTransaction_of_not_receiving (p := .main) hs]

theorem exec_poll_main (ha : s.answers .main = true) (hs : ∀ bytes, s.mainPort.slot ≠ .receiving bytes) (n : Nat) :
    exec (.poll .main n) s = .next (s.pollBytes .main n) := by
  have h : exec (.poll .main n) s = .next ((s.endTransaction .main).pollBytes .main n) :=
    congrArg Host.Outcome.next (if_pos ha)
  rw [h, State.endTransaction_of_not_receiving (p := .main) hs]

/-- A read on the panel port ends no frame, and does what the read selection says. -/
theorem State.panelReadOn_eq (ha : s.answers .panel = true) (hs : ∀ bytes, s.panelPort.slot ≠ .receiving bytes) (n : Nat) :
    (s.panelBus.selection = some .fetch → s.panelReadOn n = (s.select .panel none).fetchBytes .panel n) ∧
      (s.panelBus.selection = some .poll → s.panelReadOn n = (s.select .panel none).pollBytes .panel n) ∧
      (s.panelBus.selection = none →
        s.panelReadOn n = ((s.select .panel none).setBadKind .panel).shiftOut .panel (List.replicate n 0xFF)) := by
  unfold State.panelReadOn
  rw [if_pos ha, State.endTransaction_of_not_receiving (p := .panel) hs]
  exact ⟨fun h => by rw [h], fun h => by rw [h], fun h => by rw [h]⟩

theorem exec_panelRead (n : Nat) : exec (.panelRead n) s = .next (s.panelReadOn n) := rfl

/-- An unknown kind byte is flagged on the port that receives it. -/
theorem exec_badKind {p : Port} {kind : Byte} (ha : s.answers p = true)
    (hs : ∀ bytes, (s.port p).slot ≠ .receiving bytes) (hk : kindOf kind = none) (n : Nat) :
    exec (.badKind p kind n) s =
      .next
        (Port.casesOn (motive := fun _ => State) p ((s.setBadKind p).shiftOut .main (List.replicate n 0xFF))
          (((s.setBadKind p).select .panel none).acknowledge .panel (ignoredWriteAcks false n))) := by
  have h : exec (.badKind p kind n) s = .next (s.badKindOn p kind n) := rfl
  have hc : (s.answers p && (kindOf kind).isNone) = true := by rw [ha, hk]; rfl
  rw [h, State.badKindOn, if_pos hc, State.endTransaction_of_not_receiving hs]
  cases p <;> rfl

theorem kindOf_eq_none {kind : Byte} (h1 : kind ≠ 0xA1) (h2 : kind ≠ 0xA2) (h3 : kind ≠ 0xA3) : kindOf kind = none := by
  unfold kindOf
  rw [if_neg (by exact h1), if_neg (by exact h2), if_neg (by exact h3)]

/-- A slot that is not IDLE refuses the SUBMIT. -/
theorem State.submitKind_of_not_idle {p : Port} (h : (s.port p).slot ≠ .idle) :
    s.submitKind p = s.withPort p { s.port p with refused := true } := by
  unfold State.submitKind
  split
  · next hs => exact absurd hs h
  · rfl
  · rfl
  · rfl

theorem exec_submit_of_not_idle {p : Port} (ha : s.answers p = true) (h : (s.port p).slot ≠ .idle) :
    exec (.submit p) s =
      .next ((((s.withPort p { s.port p with refused := true }).select p none).shiftOut p []).acknowledge p [true, true]) := by
  have he : exec (.submit p) s = .next (s.submitOn p) := rfl
  rw [he, State.submitOn, if_pos ha, State.submitKind_of_not_idle h]

/-! ### The obligations -/

/-- Settles O12. -/
theorem busySubmitIsRefused : Obligations.BusySubmitIsRefused := by
  unfold Obligations.BusySubmitIsRefused
  exact ⟨fun s ha hs => exec_submit_of_not_idle ha hs, fun s ha hs => exec_submit_of_not_idle ha hs⟩

/-- A port that does not answer takes no transaction. -/
theorem exec_of_not_answers {p : Port} {i : Instr} (ha : s.answers p = false) (ht : transactionOn p i = true) :
    exec i s = .next s := by
  have hn : ¬s.answers p = true := by simp [ha]
  cases i with
  | submit q => cases of_decide_eq_true ht; exact congrArg Host.Outcome.next (if_neg hn)
  | requestFrame q bytes => cases of_decide_eq_true ht; exact congrArg Host.Outcome.next (if_neg hn)
  | submitTruncated q => cases of_decide_eq_true ht; exact congrArg Host.Outcome.next (if_neg hn)
  | fetch q n => cases of_decide_eq_true ht; exact congrArg Host.Outcome.next (if_neg hn)
  | poll q n => cases of_decide_eq_true ht; exact congrArg Host.Outcome.next (if_neg hn)
  | badKind q kind n =>
    cases of_decide_eq_true ht
    exact congrArg Host.Outcome.next (if_neg (by simp [ha]))
  | panelRead n => cases of_decide_eq_true ht; exact congrArg Host.Outcome.next (if_neg hn)
  | _ => exact absurd ht (by simp [transactionOn])

/-- Settles O14. -/
theorem deafUntilFooting : Obligations.DeafUntilFooting := by
  unfold Obligations.DeafUntilFooting
  refine ⟨fun s p i => exec_of_not_answers, fun s hr => ?_, fun s hr => ⟨fun hs => ?_, fun hs => ?_⟩⟩
  · have hn : ¬s.running = true := by simp [hr]
    exact ⟨congrArg Host.Outcome.next (if_neg hn), congrArg Host.Outcome.next (if_neg hn)⟩
  · exact ⟨_, congrArg Host.Outcome.next (State.regainFooting_of_not_receiving (p := .main) hr hs), rfl,
      State.answers_iff.2 ⟨hr, rfl⟩⟩
  · exact ⟨_, congrArg Host.Outcome.next (State.regainFooting_of_not_receiving (p := .panel) hr hs), rfl,
      State.answers_iff.2 ⟨hr, rfl⟩⟩

/-- Settles O15: the case split is the one on what the slot holds, and on whether the host clocks the whole response. -/
theorem mainFetch : Obligations.MainFetch := by
  unfold Obligations.MainFetch
  refine ⟨fun s frame n ha hs => ?_, fun s n ha hs => ?_⟩
  · have hr : ∀ bytes, s.mainPort.slot ≠ .receiving bytes := fun _ h => by rw [hs] at h; cases h
    refine ⟨fun hn => ?_, fun hn => ?_⟩
    · rw [exec_fetch_main ha hr, State.fetchBytes_ready (p := .main) hs, if_neg (Nat.not_le.2 hn), Nat.sub_eq_zero_of_le hn.le,
        List.replicate_zero, List.append_nil]
      rfl
    · rw [exec_fetch_main ha hr, State.fetchBytes_ready (p := .main) hs, if_pos hn, List.take_of_length_le hn]
      rfl
  · have hr : ∀ bytes, s.mainPort.slot ≠ .receiving bytes := by
      rintro bytes h
      rcases hs with hs | ⟨r, hs⟩ <;> rw [h] at hs <;> cases hs
    have hf : ∀ frame, (s.port .main).slot ≠ .ready frame := by
      rintro bytes h
      have h' : s.mainPort.slot = .ready bytes := h
      rcases hs with hs | ⟨r, hs⟩ <;> rw [h'] at hs <;> cases hs
    refine ⟨by rw [exec_fetch_main ha hr, State.fetchBytes_not_ready hf]; rfl, ?_⟩
    rw [exec_fetch_main ha hr, State.fetchBytes_not_ready hf, List.take_of_length_le (by simp)]
    rfl

/-- The bits of a status byte, for any slot code below four. -/
theorem statusBits {code : Byte} (h : code.toNat < 4) (a b c d e : Bool) :
    let x := code ||| flagBit a 2 ||| flagBit b 3 ||| flagBit c 4 ||| flagBit d 5 ||| flagBit e 6
    x.toNat % 4 = code.toNat ∧ x.getLsbD 2 = a ∧ x.getLsbD 3 = b ∧ x.getLsbD 4 = c ∧ x.getLsbD 5 = d ∧
      x.getLsbD 6 = e ∧ x.getLsbD 7 = false := by
  have hc : code = 0 ∨ code = 1 ∨ code = 2 ∨ code = 3 := by bv_omega
  rcases hc with rfl | rfl | rfl | rfl <;> revert a b c d e <;> decide

/-- Settles O16. -/
theorem mainPoll : Obligations.MainPoll := by
  unfold Obligations.MainPoll
  refine fun s ha hs => ⟨(exec_poll_main ha hs 0).trans rfl, fun n =>
    ⟨s.statusByte .main, s.pendingGroups, (exec_poll_main ha hs (n + 1)).trans rfl, ?_⟩⟩
  have hcode : s.mainPort.slot.code.toNat < 4 := by cases s.mainPort.slot <;> exact of_decide_eq_true rfl
  obtain ⟨h01, h2, h3, h4, h5, h6, h7⟩ :=
    statusBits hcode s.mainPort.refused s.mainPort.truncated s.mainPort.badKind s.clock.valid s.engine.work.isResync
  obtain ⟨g0, g1, g2, g3, g4, -⟩ := flags_getLsbD (s.groupPending .entry) (s.groupPending .channel) (s.groupPending .input)
    (s.groupPending .clock) (s.groupPending .port)
  refine ⟨h01.trans ?_, h2, h3, h4, h5, h6, h7, g0, g1, g2, g3, g4⟩
  cases s.mainPort.slot <;> rfl

/-- Settles O17: a read on the panel port by its read selection. -/
theorem panelReads : Obligations.PanelReads := by
  unfold Obligations.PanelReads
  refine fun s ha hs => ⟨fun n => ?_, fun frame n hsel hf => ?_, fun n hsel hi => ?_, fun n hsel => ?_, fun n hsel => ?_⟩
  · have hfetch : exec (.fetch .panel n) s =
        .next (((s.endTransaction .panel).select .panel (some .fetch)).acknowledge .panel (ignoredWriteAcks true n)) :=
      congrArg Host.Outcome.next (if_pos ha)
    have hpoll : exec (.poll .panel n) s =
        .next (((s.endTransaction .panel).select .panel (some .poll)).acknowledge .panel (ignoredWriteAcks true n)) :=
      congrArg Host.Outcome.next (if_pos ha)
    rw [hfetch, hpoll, State.endTransaction_of_not_receiving (p := .panel) hs]
    exact ⟨rfl, rfl⟩
  · refine ⟨_, congrArg Host.Outcome.next (((State.panelReadOn_eq ha hs n).1 hsel).trans
      (State.fetchBytes_ready (s := s.select .panel none) (p := .panel) hf n)), ?_⟩
    by_cases hn : frame.length ≤ n
    · rw [if_pos hn, if_pos hn]
      exact ⟨rfl, rfl, rfl, rfl⟩
    · rw [if_neg hn, if_neg hn]
      exact ⟨rfl, rfl, hf, rfl⟩
  · have hf : ∀ frame, ((s.select .panel none).port .panel).slot ≠ .ready frame := fun frame h => by
      have h' : s.panelPort.slot = .ready frame := h
      rw [hi] at h'
      cases h'
    rw [exec_panelRead, (State.panelReadOn_eq ha hs _).1 hsel, State.fetchBytes_not_ready hf, List.take_of_length_le (by simp)]
    rfl
  · rw [exec_panelRead, (State.panelReadOn_eq ha hs _).2.1 hsel]
    have hp : ∀ u : State, u.pollBytes .panel (n + 2) =
        { u with
          panelPort :=
            { u.panelPort with
              refused := false, truncated := false, badKind := false
              shifted := List.take (n + 2) (u.statusByte .panel :: u.pendingGroups :: List.replicate n 0xFF) } } :=
      fun _ => rfl
    rw [hp, List.take_of_length_le (by simp)]
    rfl
  · rw [exec_panelRead, (State.panelReadOn_eq ha hs n).2.2 hsel]
    have hb : ({ s.panelBus with selection := none } : PanelBus) = s.panelBus := by rw [← hsel]
    exact congrArg (fun b => Host.Outcome.next
      { s with panelPort := { s.panelPort with badKind := true, shifted := List.replicate n 0xFF }, panelBus := b }) hb

/-- Settles O18. -/
theorem badKindIsFlagged : Obligations.BadKindIsFlagged := by
  unfold Obligations.BadKindIsFlagged
  refine ⟨fun p n => ⟨rfl, rfl, rfl⟩, fun s kind n h1 h2 h3 => ?_⟩
  have hk := kindOf_eq_none h1 h2 h3
  have ht : ∀ p, transactionOf p kind n = .badKind p kind n := fun p => by
    unfold transactionOf
    rw [hk]
  exact ⟨fun ha hs => ⟨ht .main, (exec_badKind ha hs hk n).trans rfl⟩,
    fun ha hs => ⟨ht .panel, (exec_badKind ha hs hk n).trans rfl⟩⟩

/-! ### The settings of a channel, and its return to service -/

theorem readChannelNo_byte (c : Chan) : readChannelNo [byteOf c.val] = some c := by
  have hb : natAt [byteOf c.val] 0 = c.val := by
    have := c.isLt
    simp only [natAt, byteAt, List.getD_cons_zero]
    exact toNat_byteOf (by omega)
  unfold readChannelNo
  rw [if_neg (by simp), dif_pos (by rw [hb]; exact c.isLt)]
  simp only [hb]

theorem ChannelRun.intoService_eq (run : ChannelRun) (cfg : ChannelConfig) (target : Action) :
    run.intoService cfg target = ChannelRun.fresh cfg none target :=
  ChannelRun.change_eq (run := { run with state := .normal, pending := none }) nofun cfg target

/-- Settles O36: the channel enters service on its target. -/
theorem clearFaultReturnsToService : Obligations.ClearFaultReturnsToService := by
  unfold Obligations.ClearFaultReturnsToService
  intro s p tag c h ha hf
  have hrun : s.clearFault c = s.withChannel c (ChannelRun.fresh (s.config c) none (targetOf (s.config c) (s.lastTop c))) :=
    congrArg (s.withChannel c) (ChannelRun.intoService_eq _ _ _)
  have hstate : ((s.clearFault c).channel c).state.code =
      if (s.config c).guardTime = 0 then ChannelState.normal.code else ChannelState.guarding.code := by
    rw [hrun, State.channel_withChannel_self]
    exact apply_ite ChannelState.code _ _ _
  have hbody : clearFaultBody p [byteOf c.val] s = (s.clearFault c, Reply.ok [((s.clearFault c).channel c).state.code]) := by
    unfold clearFaultBody
    simp [ha, readChannelNo_byte, hf]
  rw [← hstate, show Instr.clearFault p = Command.row p .clearFault from rfl,
    h.served nofun rfl hbody (State.port_of_ports rfl rfl p), hrun]
  rfl

/-- A channel that is not FAULTED restarts its proof as proof applies to a channel in service. -/
theorem ChannelRun.restartProof_eq {run : ChannelRun} (h : run.state ≠ .faulted) (cfg : ChannelConfig) :
    run.restartProof cfg =
      { run with
        proof := if proofApplies cfg .normal run.commanded then .settling else .idle
        proofTicks := if proofApplies cfg .normal run.commanded then cfg.proofTime.toNat else 0 } := by
  have hs : proofApplies cfg run.state run.commanded = proofApplies cfg .normal run.commanded := by simp [proofApplies, h]
  unfold ChannelRun.restartProof
  rw [hs]
  cases proofApplies cfg .normal run.commanded <;> rfl

theorem ChannelRun.told_not_faulted {run : ChannelRun} (h : run.state ≠ .faulted) (cfg : ChannelConfig) (a : Action) :
    (run.told cfg a).state ≠ .faulted := by
  unfold ChannelRun.told
  cases hs : run.state with
  | disabled => exact h
  | faulted => exact absurd hs h
  | guarding => exact nofun
  | normal =>
    dsimp only
    split
    · exact h
    · unfold ChannelRun.fresh
      split <;> exact nofun

theorem ChannelConfig.fallback_ne_iff {a b : ChannelConfig} : a.fallback ≠ b.fallback ↔ a.fallbackOn ≠ b.fallbackOn := by
  unfold ChannelConfig.fallback
  cases a.fallbackOn <;> cases b.fallbackOn <;> simp

/-- A channel in service takes new settings. -/
theorem ChannelRun.configure_inService {run : ChannelRun} {old cfg : ChannelConfig} {top : Option Top}
    (he : cfg.enabled = true) (hs : run.state = .normal ∨ run.state = .guarding) :
    ∃ kept : ChannelRun,
      kept = (if top = none ∧ cfg.fallbackOn ≠ old.fallbackOn then run.told cfg (if cfg.fallbackOn then .on else .off)
        else run) ∧
      run.configure old cfg top =
        { kept with
          proof := if proofApplies cfg .normal kept.commanded then .settling else .idle
          proofTicks := if proofApplies cfg .normal kept.commanded then cfg.proofTime.toNat else 0 } := by
  have hn : run.state ≠ .faulted := by rcases hs with hs | hs <;> rw [hs] <;> exact nofun
  have hc : run.configure old cfg top = (run.newFallback old cfg top).restartProof cfg := by
    unfold ChannelRun.configure
    rcases hs with hs | hs <;> simp [he, hs]
  refine ⟨_, rfl, ?_⟩
  rw [hc]
  unfold ChannelRun.newFallback
  simp only [ChannelConfig.fallback_ne_iff]
  split
  · rw [ChannelRun.takeTarget_eq_told]
    exact ChannelRun.restartProof_eq (ChannelRun.told_not_faulted hn _ _) cfg
  · exact ChannelRun.restartProof_eq hn cfg

/-- Settles O35: the case split is the one on the state of the channel. -/
theorem configureChannelByState : Obligations.ConfigureChannelByState := by
  unfold Obligations.ConfigureChannelByState
  intro s p tag payload c cfg h ha hr
  have hbody : configureChannelBody p payload s =
      (s.configureChannel c cfg, Reply.ok [((s.configureChannel c cfg).channel c).state.code]) := by
    unfold configureChannelBody
    simp [ha, hr]
  have hrun : (s.configureChannel c cfg).channel c = (s.channel c).configure (s.config c) cfg (s.lastTop c) :=
    State.channel_withChannel_self _ _ _
  rw [hrun] at hbody
  refine ⟨_, h.served nofun rfl hbody (State.port_of_ports rfl rfl p), fun he => ?_, fun he hs => ?_, fun he hs => ?_,
    fun he hs => ChannelRun.configure_inService he hs⟩
  · simp [ChannelRun.configure, he]
    rfl
  · simp [ChannelRun.configure, he, hs, ChannelRun.intoService_eq]
  · simp [ChannelRun.configure, he, hs]
    rfl

end Sys2Proof.Machine
end

section
/-! PROOFS. The judgement of a request: refused with the first status that applies, or accepted (O19,
  O20; sections 11.4 and
11.5). -/

namespace Sys2Proof.Machine

variable {s t : State} {p : Port} {c : Command} {payload : List Byte}

/-! ### A judged request -/

/-- A command refuses with the status that applies and changes nothing,
  or accepts where no status applies and answers OK. -/
inductive State.Judged (s : State) (p : Port) (c : Command) (payload : List Byte) : State × Reply → Prop
  | refused {status : Status} (h : s.refusedWith p c payload status) : State.Judged s p c payload (s.refuse status)
  | accepted {u : State} {result : List Byte} (h : ∀ status, ¬s.refusedWith p c payload status)
      (hp : u.port p = s.port p) : State.Judged s p c payload (u, Reply.ok result)

/-! ### Which commands a condition of refusal concerns -/

theorem State.not_lacksClock (h : c ≠ .setClock ∧ c ≠ .snapMinute ∧ c ≠ .forceChannel) : ¬s.lacksClock c := by
  obtain ⟨h1, h2, h3⟩ := h
  rintro (⟨hc, -⟩ | ⟨hc | hc, -⟩)
  · exact h1 hc
  · exact h2 hc
  · exact h3 hc

theorem State.not_lacksObject (h : c ≠ .removeDate ∧ c.takesHandle = false ∧ c ≠ .readEntry ∧ c ≠ .releaseChannel) :
    ¬s.lacksObject p c payload := by
  obtain ⟨h1, h2, h3, h4⟩ := h
  rintro (⟨hc, -⟩ | ⟨hc | hc, -⟩ | ⟨hc, -⟩)
  · exact h1 hc
  · rw [h2] at hc
    cases hc
  · exact h3 hc
  · exact h4 hc

theorem State.not_isStale (h : c.takesHandle = false) : ¬s.isStale c payload := fun hs => by
  rw [hs.1] at h
  cases h

theorem State.not_inWrongState (h : c ≠ .suspendEntry ∧ c ≠ .resumeEntry ∧ c ≠ .clearFault) : ¬s.inWrongState c payload := by
  obtain ⟨h1, h2, h3⟩ := h
  rintro (⟨e, -, ⟨hc, -⟩ | ⟨hc, -⟩⟩ | ⟨hc, -⟩)
  · exact h1 hc
  · exact h2 hc
  · exact h3 hc

theorem State.not_hasNoRoom (h : c ≠ .addDate ∧ c ≠ .addEntry ∧ c ≠ .forceChannel) : ¬s.hasNoRoom p c payload := by
  obtain ⟨h1, h2, h3⟩ := h
  rintro (⟨hc, -⟩ | ⟨hc, -⟩ | ⟨hc, -⟩)
  · exact h1 hc
  · exact h2 hc
  · exact h3 hc

theorem not_isSome {α : Type} {o : Option α} (h : o = none) : ¬o.isSome = true := by
  rw [h]
  exact nofun

/-! ### The ways to be judged -/

theorem State.Judged.badArg (hd : ¬s.deniedTo p c payload) (ha : ¬s.argsGood payload c) :
    s.Judged p c payload (s.refuse .badArg) :=
  .refused (status := .badArg) ⟨hd, ha⟩

/-- None of the refusals that come after BADARG applies. -/
structure State.NothingLate (s : State) (p : Port) (c : Command) (payload : List Byte) : Prop where
  clock : ¬s.lacksClock c
  object : ¬s.lacksObject p c payload
  handle : ¬s.isStale c payload
  inState : ¬s.inWrongState c payload
  room : ¬s.hasNoRoom p c payload

/-- The commands that DENIED and BADARG alone refuse. -/
def Command.plain : Command → Bool
  | .readClock => true
  | .listDates => true
  | .findEntries => true
  | .configureChannel => true
  | .readChannel => true
  | .bindInput => true
  | .readInput => true
  | .nextCause => true
  | .nextEntryNotice => true
  | .configureAttention => true
  | .takeChannelNotice => true
  | .takeInputEvents => true
  | .ackClock => true
  | .setPanelPolicy => true
  | _ => false

theorem State.nothingLate_plain (h : c.plain = true) : s.NothingLate p c payload where
  clock := State.not_lacksClock (by revert h; cases c <;> decide)
  object := State.not_lacksObject (by revert h; cases c <;> decide)
  handle := State.not_isStale (by revert h; cases c <;> decide)
  inState := State.not_inWrongState (by revert h; cases c <;> decide)
  room := State.not_hasNoRoom (by revert h; cases c <;> decide)

theorem State.Judged.ok {u : State} {result : List Byte} (hd : ¬s.deniedTo p c payload) (ha : s.argsGood payload c)
    (hl : s.NothingLate p c payload) (hp : u.port p = s.port p) : s.Judged p c payload (u, Reply.ok result) := by
  refine .accepted (fun status h => ?_) hp
  cases status with
  | ok => exact h
  | badFrame => exact h
  | unknown => exact h
  | denied => exact hd h
  | badArg => exact h.2 ha
  | noClock => exact hl.clock h.2.2
  | notFound => exact hl.object h.2.2.2
  | stale => exact hl.handle h.2.2.2.2
  | wrongState => exact hl.inState h.2.2.2.2.2
  | full => exact hl.room h.2.2.2.2.2.2

/-! ### DENIED -/

/-- A command that needs a permission is denied where it is lacking, and only there. -/
theorem State.deniedTo_iff {perm : Permission} (hc : c.permission = some perm) :
    s.deniedTo p c payload ↔ s.allows p perm = false := by
  have hh : c.takesHandle = false := by cases c <;> cases hc <;> rfl
  have hp : c ≠ .setPanelPolicy := by rintro rfl; cases hc
  unfold State.deniedTo
  rw [hc, hh]
  simp [hp]

/-- A command that needs no permission, carries no handle and does not set the policy is denied to no one. -/
theorem State.not_deniedTo (hc : c.permission = none) (hh : c.takesHandle = false) (hp : c ≠ .setPanelPolicy) :
    ¬s.deniedTo p c payload := by
  unfold State.deniedTo
  rw [hc, hh]
  simp [hp]

/-- A command on an entry is denied where its sender may not change the entry it names. -/
theorem State.deniedTo_handle_iff (hh : c.takesHandle = true) :
    s.deniedTo p c payload ↔ payload ≠ [] ∧ s.mayChange p (slotAt payload) = false := by
  have hc : c.permission = none := by cases c <;> cases hh <;> rfl
  have hp : c ≠ .setPanelPolicy := by rintro rfl; cases hh
  unfold State.deniedTo
  rw [hc, hh]
  simp [hp]

/-! ### Commands that need a permission -/

section Permitted

variable {perm : Permission}

theorem State.Judged.denied (hc : c.permission = some perm) (ha : s.allows p perm = false) :
    s.Judged p c payload (s.refuse .denied) :=
  .refused (status := .denied) ((State.deniedTo_iff hc).2 ha)

theorem State.not_denied (hc : c.permission = some perm) (ha : s.allows p perm = true) : ¬s.deniedTo p c payload := by
  rw [State.deniedTo_iff hc, ha]
  exact nofun

end Permitted

theorem setClock_judged : s.Judged p .setClock payload (setClockBody p payload s) := by
  unfold setClockBody
  cases ha : s.allows p .calendar with
  | false => exact .denied rfl ha
  | true =>
    have hd : ¬s.deniedTo p .setClock payload := State.not_denied rfl ha
    cases hr : readDateTime payload with
    | none => exact .badArg hd (not_isSome hr)
    | some m =>
      have hg : s.argsGood payload .setClock := Option.isSome_of_eq_some hr
      by_cases ht : s.timebase.state = .running
      · simp only [Bool.not_true, Bool.false_eq_true, if_false, ne_eq, ht, not_true_eq_false]
        have hc : ¬s.lacksClock .setClock := by simp [State.lacksClock, ht]
        exact .ok hd hg
          ⟨hc, State.not_lacksObject (by decide), State.not_isStale rfl, State.not_inWrongState (by decide),
           State.not_hasNoRoom (by decide)⟩
          ((requestResync_work _).port p)
      · simp only [Bool.not_true, Bool.false_eq_true, if_false, ne_eq, ht, not_false_eq_true, if_true]
        exact .refused (status := .noClock) ⟨hd, hg, .inl ⟨rfl, ht⟩⟩

theorem State.minuteBoundary_port (s : State) (dateChanged : Bool) : (s.minuteBoundary dateChanged).port p = s.port p := by
  have h : ∀ u : State, ((u.engineBoundary).tickAt true).port p = u.port p := fun u =>
    ((tickAt_eval _ _).port p).trans ((engineBoundary_work u).port p)
  cases dateChanged
  · exact h s
  · exact (h s.dateChange).trans (State.port_of_ports rfl rfl p)

theorem State.applySnap_port (s : State) : s.applySnap.port p = s.port p := by
  unfold State.applySnap
  split
  · exact State.port_of_ports rfl rfl p
  · exact (State.minuteBoundary_port _ _).trans (State.port_of_ports rfl rfl p)

theorem snapMinute_judged : s.Judged p .snapMinute payload (snapMinuteBody p payload s) := by
  unfold snapMinuteBody
  cases ha : s.allows p .calendar with
  | false => exact .denied rfl ha
  | true =>
    have hd : ¬s.deniedTo p .snapMinute payload := State.not_denied rfl ha
    cases payload with
    | cons b l => exact .badArg hd nofun
    | nil =>
      cases hv : s.clock.valid with
      | false => exact .refused (status := .noClock) ⟨hd, rfl, .inr ⟨.inl rfl, hv⟩⟩
      | true =>
        have hc : ¬s.lacksClock .snapMinute := by simp [State.lacksClock, hv]
        exact .ok hd rfl
          ⟨hc, State.not_lacksObject (by decide), State.not_isStale rfl, State.not_inWrongState (by decide),
           State.not_hasNoRoom (by decide)⟩
          s.applySnap_port

theorem State.recordsChanged_port (s : State) (records : List DateRecord) : (s.recordsChanged records).port p = s.port p := by
  unfold State.recordsChanged
  dsimp only
  split
  · exact ((requestResync_work _).port p).trans (State.port_of_ports rfl rfl p)
  · exact State.port_of_ports rfl rfl p

theorem readDateRecord_date {r : DateRecord} (h : readDateRecord payload = some r) : r.date = dateAt payload 0 := by
  unfold readDateRecord at h
  split at h
  · obtain ⟨d, -, rfl⟩ := Option.map_eq_some_iff.1 h
    rfl
  · cases h

theorem recordFor_eq_none {l : List DateRecord} {d : Date} : recordFor l d = none ↔ ∀ r ∈ l, r.date ≠ d := by
  simp [recordFor]

theorem addDate_judged : s.Judged p .addDate payload (addDateBody p payload s) := by
  unfold addDateBody
  cases ha : s.allows p .calendar with
  | false => exact .denied rfl ha
  | true =>
    have hd : ¬s.deniedTo p .addDate payload := State.not_denied rfl ha
    cases hr : readDateRecord payload with
    | none =>
      refine .badArg hd ?_
      rintro ⟨r, h, -⟩
      rw [hr] at h
      cases h
    | some r =>
      have hdate := readDateRecord_date hr
      by_cases hpast : (s.clock.valid && r.date.before s.clock.date) = true
      · simp only [Bool.not_true, Bool.false_eq_true, if_false, hpast, if_true]
        refine .badArg hd ?_
        rintro ⟨r', h, hn⟩
        cases hr.symm.trans h
        rw [hn (Bool.and_eq_true_iff.1 hpast).1] at hpast
        simp at hpast
      · have hg : s.argsGood payload .addDate := ⟨r, hr, by simpa using hpast⟩
        have hroom : s.hasNoRoom p .addDate payload ↔
            ((recordFor s.dates.records r.date).isNone && decide (Config.dateCapacity ≤ s.dates.records.length)) = true := by
          simp [State.hasNoRoom, hdate, recordFor_eq_none, and_comm]
        by_cases hfull : s.hasNoRoom p .addDate payload
        · simp only [Bool.not_true, Bool.false_eq_true, if_false, hpast, hroom.1 hfull, if_true]
          exact .refused (status := .full) ⟨hd, hg, State.not_lacksClock (by decide), State.not_lacksObject (by decide),
            State.not_isStale rfl, State.not_inWrongState (by decide), hfull⟩
        · simp only [Bool.not_true, Bool.false_eq_true, if_false, hpast, mt hroom.2 hfull]
          exact .ok hd hg
            ⟨State.not_lacksClock (by decide), State.not_lacksObject (by decide), State.not_isStale rfl,
             State.not_inWrongState (by decide), hfull⟩
            (s.recordsChanged_port _)

theorem removeDate_judged : s.Judged p .removeDate payload (removeDateBody p payload s) := by
  unfold removeDateBody
  cases ha : s.allows p .calendar with
  | false => exact .denied rfl ha
  | true =>
    have hd : ¬s.deniedTo p .removeDate payload := State.not_denied rfl ha
    cases hr : readDate payload with
    | none => exact .badArg hd (not_isSome hr)
    | some d =>
      have hg : s.argsGood payload .removeDate := Option.isSome_of_eq_some hr
      have hdate : d = dateAt payload 0 := by
        unfold readDate at hr
        split at hr
        · exact (Option.some.inj hr).symm
        · cases hr
      dsimp only
      cases hf : recordFor s.dates.records d with
      | none =>
        exact .refused (status := .notFound) ⟨hd, hg, State.not_lacksClock (by decide), .inl ⟨rfl,
          by rw [← hdate]; exact hf⟩⟩
      | some r =>
        have ho : ¬s.lacksObject p .removeDate payload := by simp [State.lacksObject, Command.takesHandle, ← hdate, hf]
        exact .ok hd hg ⟨State.not_lacksClock (by decide), ho, State.not_isStale rfl,
          State.not_inWrongState (by decide), State.not_hasNoRoom (by decide)⟩
          (s.recordsChanged_port _)

theorem forceChannel_judged : s.Judged p .forceChannel payload (forceChannelBody p payload s) := by
  unfold forceChannelBody
  cases ha : s.allows p .force with
  | false => exact .denied rfl ha
  | true =>
    have hd : ¬s.deniedTo p .forceChannel payload := State.not_denied rfl ha
    cases hr : readForce payload with
    | none => exact .badArg hd (not_isSome hr)
    | some f =>
      have hg : s.argsGood payload .forceChannel := Option.isSome_of_eq_some hr
      cases hv : s.clock.valid with
      | false => exact .refused (status := .noClock) ⟨hd, hg, .inr ⟨.inr rfl, hv⟩⟩
      | true =>
        have hc : ¬s.lacksClock .forceChannel := by simp [State.lacksClock, hv]
        dsimp only
        cases hk : s.keeps f.channel (f.claim p) with
        | false =>
          exact .refused (status := .full) ⟨hd, hg, hc, State.not_lacksObject (by decide), State.not_isStale rfl,
            State.not_inWrongState (by decide), .inr (.inr ⟨rfl, f, hr, hk⟩)⟩
        | true =>
          have hk' : (placeInList (s.list f.channel) (f.claim p)).kept = true := hk
          have hroom : ¬s.hasNoRoom p .forceChannel payload := by simp [State.hasNoRoom, hr, hk']
          exact .ok hd hg ⟨hc, State.not_lacksObject (by decide), State.not_isStale rfl,
            State.not_inWrongState (by decide), hroom⟩
            ((place_eval s _ _).port p)

theorem releaseChannel_judged : s.Judged p .releaseChannel payload (releaseChannelBody p payload s) := by
  unfold releaseChannelBody
  cases ha : s.allows p .force with
  | false => exact .denied rfl ha
  | true =>
    have hd : ¬s.deniedTo p .releaseChannel payload := State.not_denied rfl ha
    cases hr : readChannelNo payload with
    | none => exact .badArg hd (not_isSome hr)
    | some c =>
      have hg : s.argsGood payload .releaseChannel := Option.isSome_of_eq_some hr
      dsimp only
      cases hf : claimOf (s.list c) (.port p) with
      | none =>
        exact .refused (status := .notFound) ⟨hd, hg, State.not_lacksClock (by decide), .inr (.inr ⟨rfl, c, hr, hf⟩)⟩
      | some k =>
        have ho : ¬s.lacksObject p .releaseChannel payload := by simp [State.lacksObject, Command.takesHandle, hr, hf]
        exact .ok hd hg ⟨State.not_lacksClock (by decide), ho, State.not_isStale rfl,
          State.not_inWrongState (by decide), State.not_hasNoRoom (by decide)⟩
          ((remove_eval s _ _).port p)

theorem clearFault_judged : s.Judged p .clearFault payload (clearFaultBody p payload s) := by
  unfold clearFaultBody
  cases ha : s.allows p .force with
  | false => exact .denied rfl ha
  | true =>
    have hd : ¬s.deniedTo p .clearFault payload := State.not_denied rfl ha
    cases hr : readChannelNo payload with
    | none => exact .badArg hd (not_isSome hr)
    | some c =>
      have hg : s.argsGood payload .clearFault := Option.isSome_of_eq_some hr
      by_cases hf : (s.channel c).state = .faulted
      · simp only [Bool.not_true, Bool.false_eq_true, if_false, ne_eq, hf, not_true_eq_false]
        have hw : ¬s.inWrongState .clearFault payload := by simp [State.inWrongState, hr, hf]
        exact .ok hd hg ⟨State.not_lacksClock (by decide), State.not_lacksObject (by decide), State.not_isStale rfl,
          hw, State.not_hasNoRoom (by decide)⟩
          (State.port_of_ports rfl rfl p)
      · simp only [Bool.not_true, Bool.false_eq_true, if_false, ne_eq, hf, not_false_eq_true, if_true]
        exact .refused (status := .wrongState) ⟨hd, hg, State.not_lacksClock (by decide),
          State.not_lacksObject (by decide),
          State.not_isStale rfl, .inr ⟨rfl, c, hr, hf⟩⟩

theorem configureChannel_judged : s.Judged p .configureChannel payload (configureChannelBody p payload s) := by
  unfold configureChannelBody
  cases ha : s.allows p .config with
  | false => exact .denied rfl ha
  | true =>
    have hd : ¬s.deniedTo p .configureChannel payload := State.not_denied rfl ha
    cases hr : readChannelConfig payload with
    | none => exact .badArg hd (not_isSome hr)
    | some x =>
      exact .ok (u := s.configureChannel x.1 x.2) hd (Option.isSome_of_eq_some hr) (State.nothingLate_plain rfl)
        (State.port_of_ports rfl rfl p)

theorem configureAttention_judged : s.Judged p .configureAttention payload (configureAttentionBody p payload s) := by
  unfold configureAttentionBody
  cases ha : s.allows p .config with
  | false => exact .denied rfl ha
  | true =>
    have hd : ¬s.deniedTo p .configureAttention payload := State.not_denied rfl ha
    cases hr : readAttentionConfig payload with
    | none => exact .badArg hd (not_isSome hr)
    | some x =>
      exact .ok (u := s.configureAttention x) hd (Option.isSome_of_eq_some hr) (State.nothingLate_plain rfl)
        (State.port_of_ports rfl rfl p)

theorem State.withdrawInput_port (s : State) (k : InputNo) : (s.withdrawInput k).port p = s.port p :=
  (foldl_eval (fun u c => u.remove c (.input k)) (fun u c => remove_eval u c _) allChannels s).port p

theorem State.bindInput_port (s : State) (k : InputNo) (b : Binding) : (s.bindInput k b).port p = s.port p := by
  unfold State.bindInput
  rw [State.withInput_port, State.withBinding_port, State.withdrawInput_port]

theorem bindInput_judged : s.Judged p .bindInput payload (bindInputBody p payload s) := by
  unfold bindInputBody
  cases ha : s.allows p .config with
  | false => exact .denied rfl ha
  | true =>
    have hd : ¬s.deniedTo p .bindInput payload := State.not_denied rfl ha
    cases hr : readBindInput payload with
    | none => exact .badArg hd (not_isSome hr)
    | some x => exact .ok hd (Option.isSome_of_eq_some hr) (State.nothingLate_plain rfl) (s.bindInput_port x.1 x.2)

/-! ### Commands that anyone may send -/

theorem readClock_judged : s.Judged p .readClock payload (readClockBody payload s) := by
  have hd : ¬s.deniedTo p .readClock payload := State.not_deniedTo rfl rfl nofun
  cases payload with
  | cons b l => exact .badArg hd nofun
  | nil => exact .ok hd rfl (State.nothingLate_plain rfl) rfl

theorem listDates_judged : s.Judged p .listDates payload (listDatesBody payload s) := by
  have hd : ¬s.deniedTo p .listDates payload := State.not_deniedTo rfl rfl nofun
  unfold listDatesBody
  cases hr : readDateIndex payload with
  | none => exact .badArg hd (not_isSome hr)
  | some n => exact .ok hd (Option.isSome_of_eq_some hr) (State.nothingLate_plain rfl) rfl

theorem findEntries_judged : s.Judged p .findEntries payload (findEntriesBody payload s) := by
  have hd : ¬s.deniedTo p .findEntries payload := State.not_deniedTo rfl rfl nofun
  unfold findEntriesBody
  cases hr : readFilter payload with
  | none => exact .badArg hd (not_isSome hr)
  | some f => exact .ok hd (Option.isSome_of_eq_some hr) (State.nothingLate_plain rfl) rfl

theorem readChannel_judged : s.Judged p .readChannel payload (readChannelBody payload s) := by
  have hd : ¬s.deniedTo p .readChannel payload := State.not_deniedTo rfl rfl nofun
  unfold readChannelBody
  cases hr : readChannelIndex payload with
  | none => exact .badArg hd (not_isSome hr)
  | some x => exact .ok hd (Option.isSome_of_eq_some hr) (State.nothingLate_plain rfl) rfl

theorem readInput_judged : s.Judged p .readInput payload (readInputBody payload s) := by
  have hd : ¬s.deniedTo p .readInput payload := State.not_deniedTo rfl rfl nofun
  unfold readInputBody
  cases hr : readInputNo payload with
  | none => exact .badArg hd (not_isSome hr)
  | some k => exact .ok hd (Option.isSome_of_eq_some hr) (State.nothingLate_plain rfl) rfl

theorem nextCause_judged : s.Judged p .nextCause payload (nextCauseBody payload s) := by
  have hd : ¬s.deniedTo p .nextCause payload := State.not_deniedTo rfl rfl nofun
  cases payload with
  | cons b l => exact .badArg hd nofun
  | nil => exact .ok hd rfl (State.nothingLate_plain rfl) rfl

theorem State.freeTaken_port (s : State) (i : SlotNo) (causes : BitVec 5) : (s.freeTaken i causes).port p = s.port p := by
  unfold State.freeTaken
  split
  · rfl
  · split
    · exact (freeSlot_eval s i).port p
    · rfl

theorem nextEntryNotice_judged : s.Judged p .nextEntryNotice payload (nextEntryNoticeBody payload s) := by
  have hd : ¬s.deniedTo p .nextEntryNotice payload := State.not_deniedTo rfl rfl nofun
  cases payload with
  | cons b l => exact .badArg hd nofun
  | nil =>
    simp only [nextEntryNoticeBody, List.isEmpty_nil, Bool.not_true, Bool.false_eq_true, if_false]
    cases s.lowestNotice with
    | none => exact .ok hd rfl (State.nothingLate_plain rfl) rfl
    | some i =>
      exact .ok hd rfl (State.nothingLate_plain rfl)
        ((State.freeTaken_port _ _ _).trans ((dropEntryNotice_eval s i).port p))

theorem takeChannelNotice_judged : s.Judged p .takeChannelNotice payload (takeChannelNoticeBody payload s) := by
  have hd : ¬s.deniedTo p .takeChannelNotice payload := State.not_deniedTo rfl rfl nofun
  cases payload with
  | cons b l => exact .badArg hd nofun
  | nil =>
    simp only [takeChannelNoticeBody, List.isEmpty_nil, Bool.not_true, Bool.false_eq_true, if_false]
    cases s.lowestChannelNotice with
    | none => exact .ok hd rfl (State.nothingLate_plain rfl) rfl
    | some c => exact .ok (u := s.dropChannelNotice c) hd rfl (State.nothingLate_plain rfl) (State.port_of_ports rfl rfl p)

theorem takeInputEvents_judged : s.Judged p .takeInputEvents payload (takeInputEventsBody payload s) := by
  have hd : ¬s.deniedTo p .takeInputEvents payload := State.not_deniedTo rfl rfl nofun
  cases payload with
  | cons b l => exact .badArg hd nofun
  | nil => exact .ok (u := s.clearLatches) hd rfl (State.nothingLate_plain rfl) (State.port_of_ports rfl rfl p)

theorem ackClock_judged : s.Judged p .ackClock payload (ackClockBody payload s) := by
  have hd : ¬s.deniedTo p .ackClock payload := State.not_deniedTo rfl rfl nofun
  unfold ackClockBody
  cases hr : readClockCauses payload with
  | none => exact .badArg hd (not_isSome hr)
  | some x =>
    exact .ok (u := s.ackClock x.1 x.2) hd (Option.isSome_of_eq_some hr) (State.nothingLate_plain rfl)
      (State.port_of_ports rfl rfl p)

theorem setPanelPolicy_judged : s.Judged p .setPanelPolicy payload (setPanelPolicyBody p payload s) := by
  unfold setPanelPolicyBody
  cases p with
  | panel => exact .refused (status := .denied) (.inr (.inl ⟨rfl, rfl⟩))
  | main =>
    have hd : ¬s.deniedTo .main .setPanelPolicy payload := by simp [State.deniedTo, Command.permission,
      Command.takesHandle]
    cases hr : readPolicy payload with
    | none => exact .badArg hd (not_isSome hr)
    | some x => exact .ok hd (Option.isSome_of_eq_some hr) (State.nothingLate_plain rfl) rfl

/-! ### The table commands -/

theorem addEntry_judged : s.Judged p .addEntry payload (addEntryBody p payload s) := by
  have hd : ¬s.deniedTo p .addEntry payload := State.not_deniedTo rfl rfl nofun
  unfold addEntryBody
  cases hr : readDescriptor payload with
  | none => exact .badArg hd (not_isSome hr)
  | some defn =>
    have hg : s.argsGood payload .addEntry := Option.isSome_of_eq_some hr
    dsimp only
    cases hl : s.lowestEmpty with
    | none =>
      have hall : ∀ i : SlotNo, (s.slot i).entry ≠ none := fun i => by
        have h := find?_finRange_none.1 hl i
        simpa [Option.isSome_iff_ne_none] using h
      exact .refused (status := .full) ⟨hd, hg, State.not_lacksClock (by decide), State.not_lacksObject (by decide),
        State.not_isStale rfl, State.not_inWrongState (by decide), .inr (.inl ⟨rfl, hall⟩)⟩
    | some i =>
      have hempty : (s.slot i).entry = none := by
        have h := List.find?_some hl
        simpa using h
      have hroom : ¬s.hasNoRoom p .addEntry payload := by
        rintro (⟨h, -⟩ | ⟨-, h⟩ | ⟨h, -⟩)
        · cases h
        · exact h i hempty
        · cases h
      exact .ok hd hg ⟨State.not_lacksClock (by decide), State.not_lacksObject (by decide), State.not_isStale rfl,
        State.not_inWrongState (by decide), hroom⟩
        (((admitAfterCommand_eval _ i).port p).trans (State.withSlot_port _ _ _ p))

theorem readEntry_judged : s.Judged p .readEntry payload (readEntryBody payload s) := by
  have hd : ¬s.deniedTo p .readEntry payload := State.not_deniedTo rfl rfl nofun
  unfold readEntryBody
  cases hr : readSlotNo payload with
  | none => exact .badArg hd (not_isSome hr)
  | some i =>
    have hg : s.argsGood payload .readEntry := Option.isSome_of_eq_some hr
    have hi : i = slotAt payload := by
      unfold readSlotNo at hr
      split at hr
      · exact (Option.some.inj hr).symm
      · cases hr
    dsimp only
    cases he : (s.slot i).entry with
    | none =>
      exact .refused (status := .notFound) ⟨hd, hg, State.not_lacksClock (by decide), .inr (.inl ⟨.inr rfl,
        by rw [← hi]; exact he⟩)⟩
    | some e =>
      have ho : ¬s.lacksObject p .readEntry payload := by simp [State.lacksObject, Command.takesHandle, ← hi, he]
      exact .ok hd hg ⟨State.not_lacksClock (by decide), ho, State.not_isStale rfl,
        State.not_inWrongState (by decide), State.not_hasNoRoom (by decide)⟩ rfl

section Handles

variable {α : Type} {handle : Option (SlotNo × Byte × α)}

/-- The refusals that the commands on an entry share: what is left to judge is the command on the entry it found. -/
theorem withHandle_judged {k : SlotNo → Entry → α → State × Reply} (hh : c.takesHandle = true)
    (hg : s.argsGood payload c ↔ handle.isSome = true)
    (hat : ∀ i gen x, handle = some (i, gen, x) → i = slotAt payload ∧ gen = byteAt payload 1)
    (hk : ∀ i e x, ¬s.deniedTo p c payload → s.argsGood payload c → i = slotAt payload → (s.slot i).entry = some e →
      ¬s.lacksObject p c payload → ¬s.isStale c payload → s.Judged p c payload (k i e x)) :
    s.Judged p c payload (s.withHandle p payload handle k) := by
  have hc : ¬s.lacksClock c := by
    rintro (⟨rfl, -⟩ | ⟨rfl | rfl, -⟩) <;> cases hh
  unfold State.withHandle
  by_cases hd : s.deniedTo p c payload
  · have hd' := (State.deniedTo_handle_iff hh).1 hd
    rw [if_pos (by simpa using hd')]
    exact .refused (status := .denied) hd
  · have hd' := mt (State.deniedTo_handle_iff hh).2 hd
    rw [if_neg (by simpa using hd')]
    cases hx : handle with
    | none => exact .badArg hd (by simp [hg, hx])
    | some y =>
      obtain ⟨i, gen, x⟩ := y
      obtain ⟨hi, hgen⟩ := hat i gen x hx
      have ha : s.argsGood payload c := by simp [hg, hx]
      dsimp only
      cases he : (s.slot i).entry with
      | none => exact .refused (status := .notFound) ⟨hd, ha, hc, .inr (.inl ⟨.inl hh, by rw [← hi]; exact he⟩)⟩
      | some e =>
        have ho : ¬s.lacksObject p c payload := by
          rintro (⟨rfl, -⟩ | ⟨-, h⟩ | ⟨rfl, -⟩)
          · cases hh
          · rw [← hi, he] at h
            cases h
          · cases hh
        by_cases hs : s.isStale c payload
        · have hne : (s.slot i).gen ≠ gen := by rw [hi, hgen]; exact hs.2
          simp only [if_pos hne]
          exact .refused (status := .stale) ⟨hd, ha, hc, ho, hs⟩
        · have heq : ¬(s.slot i).gen ≠ gen := fun h => hs ⟨hh, by rw [← hi, ← hgen]; exact h⟩
          simp only [if_neg heq]
          exact hk i e x hd ha hi he ho hs

end Handles

theorem modifyEntry_judged : s.Judged p .modifyEntry payload (modifyEntryBody p payload s) := by
  refine withHandle_judged rfl Iff.rfl (fun i gen x h => ?_) fun i e x hd ha hi he ho hs => ?_
  · unfold readModify at h
    split at h
    · obtain ⟨d, -, h⟩ := Option.map_eq_some_iff.1 h
      cases h
      exact ⟨rfl, rfl⟩
    · cases h
  · exact .ok hd ha ⟨State.not_lacksClock (by decide), ho, hs, State.not_inWrongState (by decide),
    State.not_hasNoRoom (by decide)⟩
      ((modify_eval s i e x).port p)

theorem readBareHandle_eq {i : SlotNo} {gen : Byte} {x : Unit} (h : readBareHandle payload = some (i, gen, x)) :
    i = slotAt payload ∧ gen = byteAt payload 1 := by
  unfold readBareHandle readHandle at h
  split at h
  · cases h
    exact ⟨rfl, rfl⟩
  · cases h

theorem readBareHandle_isSome : (readHandle payload).isSome = true ↔ (readBareHandle payload).isSome = true := by
  simp [readBareHandle]

theorem suspendEntry_judged : s.Judged p .suspendEntry payload (suspendEntryBody p payload s) := by
  refine withHandle_judged rfl readBareHandle_isSome (fun i gen x => readBareHandle_eq) fun i e x hd ha hi he ho hs => ?_
  have hwrong : e.state = .suspended ∨ e.state = .spent → s.Judged p .suspendEntry payload (s.refuse .wrongState) := fun h =>
    .refused (status := .wrongState) ⟨hd, ha, State.not_lacksClock (by decide), ho, hs, .inl ⟨e,
      by rw [← hi]; exact he, .inl ⟨rfl, h⟩⟩⟩
  have hl : ¬(e.state = .suspended ∨ e.state = .spent) → s.NothingLate p .suspendEntry payload := fun h =>
    ⟨State.not_lacksClock (by decide), ho, hs, by simp [State.inWrongState, ← hi, he]; simpa using h,
     State.not_hasNoRoom (by decide)⟩
  cases hst : e.state with
  | armed => exact .ok hd ha (hl (by rw [hst]; decide)) (State.withSlot_port _ _ _ p)
  | active => exact .ok hd ha (hl (by rw [hst]; decide)) ((suspendActive_eval s i e).port p)
  | suspended => exact hwrong (.inl hst)
  | spent => exact hwrong (.inr hst)

theorem resumeEntry_judged : s.Judged p .resumeEntry payload (resumeEntryBody p payload s) := by
  refine withHandle_judged rfl Iff.rfl (fun i gen x h => ?_) fun i e x hd ha hi he ho hs => ?_
  · unfold readResume at h
    split at h
    · obtain ⟨f, -, h⟩ := Option.map_eq_some_iff.1 h
      cases h
      exact ⟨rfl, rfl⟩
    · cases h
  · have hwrong : e.state ≠ .suspended → s.Judged p .resumeEntry payload (s.refuse .wrongState) := fun hne =>
      .refused (status := .wrongState)
        ⟨hd, ha, State.not_lacksClock (by decide), ho, hs, .inl ⟨e, by rw [← hi]; exact he, .inr ⟨rfl, hne⟩⟩⟩
    cases hst : e.state with
    | armed => exact hwrong (by rw [hst]; exact nofun)
    | active => exact hwrong (by rw [hst]; exact nofun)
    | spent => exact hwrong (by rw [hst]; exact nofun)
    | suspended =>
      have hw : ¬s.inWrongState .resumeEntry payload := by simp [State.inWrongState, ← hi, he, hst]
      exact .ok hd ha ⟨State.not_lacksClock (by decide), ho, hs, hw,
        State.not_hasNoRoom (by decide)⟩ ((resume_eval s i e x).port p)

theorem deleteEntry_judged : s.Judged p .deleteEntry payload (deleteEntryBody p payload s) :=
  withHandle_judged rfl readBareHandle_isSome (fun i gen x => readBareHandle_eq) fun i e x hd ha hi he ho hs =>
    .ok hd ha ⟨State.not_lacksClock (by decide), ho, hs, State.not_inWrongState (by decide),
      State.not_hasNoRoom (by decide)⟩
      ((deleteSlot_eval s i).port p)

/-! ### Every command -/

/-- Every command but WIPE_TABLE, whose response waits, is judged by its body. -/
theorem Command.body_judged {body : Body} (h : c.body p = some body) : s.Judged p c payload (body payload s) := by
  cases c with
  | wipeTable => cases h
  | readClock => cases h; exact readClock_judged
  | setClock => cases h; exact setClock_judged
  | snapMinute => cases h; exact snapMinute_judged
  | addDate => cases h; exact addDate_judged
  | removeDate => cases h; exact removeDate_judged
  | listDates => cases h; exact listDates_judged
  | addEntry => cases h; exact addEntry_judged
  | readEntry => cases h; exact readEntry_judged
  | modifyEntry => cases h; exact modifyEntry_judged
  | suspendEntry => cases h; exact suspendEntry_judged
  | resumeEntry => cases h; exact resumeEntry_judged
  | deleteEntry => cases h; exact deleteEntry_judged
  | findEntries => cases h; exact findEntries_judged
  | configureChannel => cases h; exact configureChannel_judged
  | readChannel => cases h; exact readChannel_judged
  | forceChannel => cases h; exact forceChannel_judged
  | releaseChannel => cases h; exact releaseChannel_judged
  | clearFault => cases h; exact clearFault_judged
  | bindInput => cases h; exact bindInput_judged
  | readInput => cases h; exact readInput_judged
  | nextCause => cases h; exact nextCause_judged
  | nextEntryNotice => cases h; exact nextEntryNotice_judged
  | configureAttention => cases h; exact configureAttention_judged
  | takeChannelNotice => cases h; exact takeChannelNotice_judged
  | takeInputEvents => cases h; exact takeInputEvents_judged
  | ackClock => cases h; exact ackClock_judged
  | setPanelPolicy => cases h; exact setPanelPolicy_judged

/-! ### What a response says -/

theorem Status.code_injective {a b : Status} (h : a.code = b.code) : a = b := by
  revert h
  cases a <;> cases b <;> decide

/-- A response frame tells its reply. -/
theorem responseFrame_injective {tag : Byte} {a b : Reply} (h : responseFrame tag a = responseFrame tag b) : a = b := by
  obtain ⟨sa, pa⟩ := a
  obtain ⟨sb, pb⟩ := b
  simp only [responseFrame, closeFrame, List.cons_append, List.nil_append, List.cons.injEq, true_and] at h
  obtain ⟨hs, -, hp⟩ := h
  rw [Status.code_injective hs, (List.append_inj' hp rfl).1]

theorem State.answered_slot (s : State) (p : Port) (tag : Byte) (reply : Reply) :
    ((s.answered p tag reply).port p).slot = .ready (responseFrame tag reply) := by
  unfold State.answered
  rw [State.setPortSlot_port_self]

/-- A table command waits while the table is not free. -/
theorem exec_waits (hc : c.isTable = true) (hf : s.tableFree = false) : exec (c.row p) s = .next s := by
  cases hb : c.body p with
  | none =>
    have hw : c = .wipeTable := by
      cases c with
      | wipeTable => rfl
      | _ => cases hb
    have ht : s.takeWipe p = s := if_neg (by simp [hf])
    rw [hw]
    exact congrArg Host.Outcome.next ht
  | some body => rw [exec_row hb, if_pos hc, State.serveTable_waits hf]

/-- What the row of a command does with the request that asks for it, when the table is free for it. -/
theorem exec_judged {tag : Byte} (hne : c ≠ .wipeTable) (h : s.asks p c tag payload)
    (hf : c.isTable = true → s.tableFree = true) :
    (∃ status, s.refusedWith p c payload status ∧ exec (c.row p) s = .next (s.answered p tag (Reply.refusal status))) ∨
      (∀ status, ¬s.refusedWith p c payload status) ∧
        ∃ u result, exec (c.row p) s = .next (State.answered u p tag (Reply.ok result)) := by
  obtain ⟨body, hb⟩ : ∃ body, c.body p = some body := by
    cases c with
    | wipeTable => exact absurd rfl hne
    | _ => exact ⟨_, rfl⟩
  have hj : s.Judged p c payload (body payload s) := Command.body_judged hb
  generalize hx : body payload s = x at hj
  cases hj with
  | refused hr => exact .inl ⟨_, hr, h.served hf hb hx rfl⟩
  | accepted hn hp => exact .inr ⟨hn, _, _, h.served hf hb hx hp⟩

/-! ### WIPE_TABLE -/

/-- The three ways in which a WIPE_TABLE that finds the table free is taken. -/
theorem takeWipe_judged {tag : Byte} (h : s.asks p .wipeTable tag payload) (hf : s.tableFree = true) :
    (s.allows p .others = false → s.takeWipe p = s.answered p tag (Reply.refusal .denied)) ∧
      (s.allows p .others = true → payload ≠ [] → s.takeWipe p = s.answered p tag (Reply.refusal .badArg)) ∧
      (s.allows p .others = true → payload = [] →
        s.takeWipe p = { s with engine := { s.engine with wipe := some { port := p, cursor := 0 } } }) := by
  obtain ⟨hr, hs⟩ := h
  have hreq := State.request_of_slot hs
  have hresp : ∀ reply, s.respond p reply = s.answered p tag reply := fun reply => State.respond_eq hreq reply
  have hw : s.takeWipe p =
      (s.wipeRefusal p payload).elim (s.withEngine { s.engine with wipe := some { port := p, cursor := 0 } })
        (fun status => s.answered p tag (Reply.refusal status)) := by
    unfold State.takeWipe
    rw [if_pos (by rw [hf, hr]; rfl), hreq]
    dsimp only
    rw [if_pos rfl]
    cases s.wipeRefusal p payload with
    | none => rfl
    | some status => exact hresp _
  rw [hw]
  unfold State.wipeRefusal
  refine ⟨fun ha => by rw [ha]; rfl, fun ha hp => ?_, fun ha hp => by rw [ha, hp]; rfl⟩
  cases payload with
  | nil => exact absurd rfl hp
  | cons b l => rw [ha]; rfl

/-- The refusals of a WIPE_TABLE. -/
theorem wipeTable_refusedWith_iff (status : Status) :
    s.refusedWith p .wipeTable payload status ↔
      status = .denied ∧ s.allows p .others = false ∨ status = .badArg ∧ s.allows p .others = true ∧ payload ≠ [] := by
  have hd : s.deniedTo p .wipeTable payload ↔ s.allows p .others = false := State.deniedTo_iff rfl
  have hc : ¬s.lacksClock .wipeTable := State.not_lacksClock (by decide)
  have ho : ¬s.lacksObject p .wipeTable payload := State.not_lacksObject (by decide)
  have hs : ¬s.isStale .wipeTable payload := State.not_isStale rfl
  have hw : ¬s.inWrongState .wipeTable payload := State.not_inWrongState (by decide)
  have hf : ¬s.hasNoRoom p .wipeTable payload := State.not_hasNoRoom (by decide)
  have hg : s.argsGood payload .wipeTable ↔ payload = [] := Iff.rfl
  cases status <;> simp [State.refusedWith, hd, hc, ho, hs, hw, hf, hg]

/-! ### The obligations -/

/-- A refused command leaves its response and nothing else. -/
theorem refused_changes_nothing {tag : Byte} {reply : Reply} (h : s.asks p c tag payload)
    (he : exec (c.row p) s = .next t) (ht : (t.port p).slot = .ready (responseFrame tag reply)) (hr : reply.status ≠ .ok) :
    reply.payload = [] ∧ t = s.answered p tag reply := by
  have hpending : ∀ frame, (s.port p).slot ≠ .ready frame := fun frame hs => by
    rw [h.2] at hs
    cases hs
  have hrefused : ∀ status, t = s.answered p tag (Reply.refusal status) →
      reply.payload = [] ∧ t = s.answered p tag reply := fun status hts => by
    have hrep : reply = Reply.refusal status := by
      rw [hts, State.answered_slot] at ht
      exact (responseFrame_injective (PortSlot.ready.inj ht)).symm
    exact ⟨by rw [hrep]; rfl, by rw [hrep]; exact hts⟩
  by_cases hf : c.isTable = true → s.tableFree = true
  · by_cases hne : c = .wipeTable
    · subst hne
      have hts : t = s.takeWipe p := (Host.Outcome.next.inj he).symm
      obtain ⟨hden, hbad, hok⟩ := takeWipe_judged h (hf rfl)
      cases ha : s.allows p .others with
      | false => exact hrefused _ (hts.trans (hden ha))
      | true =>
        by_cases hp : payload = []
        · have hport : t.port p = s.port p := by rw [hts, hok ha hp]; exact State.port_of_ports rfl rfl p
          exact absurd (hport ▸ ht) (hpending _)
        · exact hrefused _ (hts.trans (hbad ha hp))
    · rcases exec_judged hne h hf with ⟨status, -, hx⟩ | ⟨-, u, result, hx⟩
      · exact hrefused status (Host.Outcome.next.inj (he.symm.trans hx))
      · have hts : t = u.answered p tag (Reply.ok result) := Host.Outcome.next.inj (he.symm.trans hx)
        rw [hts, State.answered_slot] at ht
        rw [← responseFrame_injective (PortSlot.ready.inj ht)] at hr
        exact absurd rfl hr
  · obtain ⟨hc, hn⟩ := Classical.not_imp.1 hf
    have hts : t = s := Host.Outcome.next.inj (he.symm.trans (exec_waits hc (by simpa using hn)))
    exact absurd (hts ▸ ht) (hpending _)

/-- Settles O19: a table command that waits leaves the state, and the judgement of a request says the rest. -/
theorem refusedOrWaitingChangesNothing : Obligations.RefusedOrWaitingChangesNothing := by
  unfold Obligations.RefusedOrWaitingChangesNothing
  exact ⟨fun c p s t tag payload reply h he ht hr => refused_changes_nothing h he ht hr,
    fun c p s hc hf => exec_waits hc hf⟩

/-- One status at most applies. -/
theorem State.refusedWith_unique {a b : Status} (ha : s.refusedWith p c payload a) (hb : s.refusedWith p c payload b) :
    a = b := by
  revert ha hb
  cases a <;> cases b <;> simp only [State.refusedWith] <;> tauto

/-- The status that applies is the one that is answered. -/
theorem exec_refused {tag : Byte} {status : Status} (h : s.asks p c tag payload)
    (hf : c.isTable = true → s.tableFree = true) (hr : s.refusedWith p c payload status) :
    exec (c.row p) s = .next (s.answered p tag (Reply.refusal status)) := by
  by_cases hne : c = .wipeTable
  · subst hne
    obtain ⟨hden, hbad, -⟩ := takeWipe_judged h (hf rfl)
    rcases (wipeTable_refusedWith_iff status).1 hr with ⟨rfl, ha⟩ | ⟨rfl, ha, hp⟩
    · exact congrArg Host.Outcome.next (hden ha)
    · exact congrArg Host.Outcome.next (hbad ha hp)
  · rcases exec_judged hne h hf with ⟨status', hr', hx⟩ | ⟨hn, -⟩
    · rw [State.refusedWith_unique hr hr', hx]
    · exact absurd hr (hn status)

theorem slotAt_byteOf (i : SlotNo) (rest : List Byte) : slotAt (byteOf i.val :: rest) = i :=
  Fin.ext (toNat_byteOf i.isLt)

theorem State.mayChange_of_entry {i : SlotNo} {e : Entry} (he : (s.slot i).entry = some e) :
    s.mayChange p i = (!(e.defn.guarded && decide (e.owner ≠ p)) && (decide (e.owner = p) || s.allows p .others)) := by
  unfold State.mayChange
  rw [he]

/-- A DENIED of the main port is one of the four commands on a guarded entry of the panel. -/
theorem main_denied {tag : Byte} (h : s.asks .main c tag payload)
    (he : exec (c.row .main) s = .next (s.answered .main tag (Reply.refusal .denied))) :
    c.takesHandle = true ∧ ∃ e, (s.slot (slotAt payload)).entry = some e ∧ e.owner = .panel ∧ e.defn.guarded = true := by
  have hslot := State.answered_slot s .main tag (Reply.refusal .denied)
  have hf : c.isTable = true → s.tableFree = true := fun hc => by
    by_contra hn
    rw [exec_waits hc (by simpa using hn)] at he
    rw [← Host.Outcome.next.inj he, h.2] at hslot
    cases hslot
  have hden : s.deniedTo .main c payload := by
    by_contra hn
    by_cases hne : c = .wipeTable
    · subst hne
      exact hn ((State.deniedTo_iff (perm := .others) rfl).2 (by
        by_contra ha
        obtain ⟨-, hbad, hok⟩ := takeWipe_judged h (hf rfl)
        have ht : s.takeWipe .main = s.answered .main tag (Reply.refusal .denied) := Host.Outcome.next.inj he
        by_cases hp : payload = []
        · rw [← ht, hok rfl hp] at hslot
          have hs : s.mainPort.slot = _ := h.2
          exact absurd (hs.symm.trans hslot) nofun
        · rw [← ht, hbad rfl hp, State.answered_slot] at hslot
          exact absurd (responseFrame_injective (PortSlot.ready.inj hslot)) nofun))
    · rcases exec_judged hne h hf with ⟨status, hr, hx⟩ | ⟨-, u, result, hx⟩
      · have hst := congrArg (fun x : State => (x.port .main).slot) (Host.Outcome.next.inj (hx.symm.trans he))
        simp only [State.answered_slot] at hst
        have hd : status = .denied := congrArg Reply.status (responseFrame_injective (PortSlot.ready.inj hst))
        exact hn (hd ▸ hr : s.refusedWith .main c payload .denied)
      · have hst := congrArg (fun x : State => (x.port .main).slot) (Host.Outcome.next.inj (hx.symm.trans he))
        simp only [State.answered_slot] at hst
        exact absurd (responseFrame_injective (PortSlot.ready.inj hst)) nofun
  rcases hden with ⟨perm, -, ha⟩ | ⟨-, hp⟩ | ⟨hh, -, hm⟩
  · exact absurd ha nofun
  · exact absurd hp nofun
  · refine ⟨hh, ?_⟩
    cases hx : (s.slot (slotAt payload)).entry with
    | none =>
      unfold State.mayChange at hm
      rw [hx] at hm
      cases hm
    | some e =>
      rw [State.mayChange_of_entry hx] at hm
      have hal : s.allows .main .others = true := rfl
      cases ho : e.owner with
      | main => simp [ho] at hm
      | panel => exact ⟨e, rfl, ho, by simpa [ho, hal] using hm⟩

/-- Settles O20: each clause is the refusal with the status that applies; DENIED comes before every other. -/
theorem panelNeedsPermission : Obligations.PanelNeedsPermission := by
  unfold Obligations.PanelNeedsPermission
  refine ⟨fun c perm s tag payload hc hp h hf => exec_refused h hf (status := .denied) (.inl ⟨perm, hc, hp⟩),
    fun c s tag i rest e hh he ho hg h hf => exec_refused h (fun _ => hf) (status := .denied) (.inr (.inr ⟨hh, nofun,
      ?_⟩)),
    fun c s tag i rest e hh he ho hg h hf => exec_refused h (fun _ => hf) (status := .denied) (.inr (.inr ⟨hh, nofun,
      ?_⟩)),
    fun c s tag payload h he => main_denied h he,
    fun c s p tag payload h hf => ⟨fun status => exec_refused h hf, fun hn => ⟨fun hne => ?_, ?_⟩⟩⟩
  · rw [slotAt_byteOf, State.mayChange_of_entry he]
    have hal : s.allows .panel .others = s.policy.getLsbD Permission.others.bit := rfl
    rcases hg with hg | hg <;> simp [ho, hal, hg]
  · rw [slotAt_byteOf, State.mayChange_of_entry he]
    simp [ho, hg]
  · rcases exec_judged hne h hf with ⟨status, hr, -⟩ | ⟨-, u, result, hx⟩
    · exact absurd hr (hn status)
    · exact ⟨u, result, hx⟩
  · rintro rfl
    obtain ⟨-, -, hok⟩ := takeWipe_judged h (hf rfl)
    have hn' := fun status => mt (wipeTable_refusedWith_iff status).2 (hn status)
    have ha : s.allows p .others = true := by simpa using hn' .denied
    have hp : payload = [] := by simpa [ha] using hn' .badArg
    exact congrArg Host.Outcome.next (hok ha hp)

end Sys2Proof.Machine
end

section
/-! PROOFS. The commands that read and page (O21, O22; sections 2.3, 4.2, 4.5, 6.6, 7.6 and 8.4). -/

namespace Sys2Proof.Machine

variable {s : State} {p : Port} {tag : Byte}

/-! ### Readers of an index -/

theorem natAt_head {n : Nat} (h : n < 256) (rest : List Byte) : natAt (byteOf n :: rest) 0 = n := toNat_byteOf h

theorem readChannelIndex_bytes (c : Chan) {index : Nat} (h : index ≤ 8) :
    readChannelIndex [byteOf c.val, byteOf index] = some (c, index) := by
  have hc : natAt [byteOf c.val, byteOf index] 0 = c.val := natAt_head (by omega) _
  have hi : natAt [byteOf c.val, byteOf index] 1 = index := toNat_byteOf (by omega)
  unfold readChannelIndex
  rw [if_neg (by rw [hi]; simp; omega), dif_pos (by rw [hc]; exact c.isLt)]
  simp only [hc, hi]

theorem readInputNo_byte (k : InputNo) : readInputNo [byteOf k.val] = some k := by
  have hk : natAt [byteOf k.val] 0 = k.val := natAt_head (by omega) _
  unfold readInputNo
  rw [if_neg (by simp), dif_pos (by rw [hk]; exact k.isLt)]
  simp only [hk]

theorem readSlotNo_byte (i : SlotNo) : readSlotNo [byteOf i.val] = some i := by
  have h : readSlotNo [byteOf i.val] = some (slotAt [byteOf i.val]) := rfl
  rw [h, slotAt_byteOf]

theorem readDateIndex_byte {k : Nat} (h : k ≤ 31) : readDateIndex [byteOf k] = some k := by
  have hk : natAt [byteOf k] 0 = k := natAt_head (by omega) _
  unfold readDateIndex
  rw [hk, if_pos ⟨rfl, h⟩]

/-! ### The channels on which an input has claims (R146) -/

theorem foldl_standing (l : List Chan) (f : Chan → Bool) (m : BitVec 24) (c : Chan) :
    (l.foldl (fun m d => if f d then m ||| BitVec.ofNat 24 (2 ^ d.val) else m) m).getLsbD c.val =
      (m.getLsbD c.val || decide (c ∈ l) && f c) := by
  induction l generalizing m with
  | nil => simp
  | cons d l ih =>
    rw [List.foldl_cons, ih]
    have hbit : (BitVec.ofNat 24 (2 ^ d.val)).getLsbD c.val = decide (c = d) := by
      rw [BitVec.getLsbD_ofNat, Nat.testBit_two_pow]
      simp [Fin.ext_iff, eq_comm]
    have hstep : (if f d then m ||| BitVec.ofNat 24 (2 ^ d.val) else m).getLsbD c.val =
        (m.getLsbD c.val || decide (c = d) && f d) := by
      cases f d with
      | false => rw [Bool.and_false, Bool.or_false]; rfl
      | true => rw [if_pos rfl, BitVec.getLsbD_or, hbit, Bool.and_true]
    rw [hstep, Bool.or_assoc]
    by_cases hd : c = d
    · cases hf : f d <;> simp [hd, hf]
    · simp [hd]

theorem State.standing_getLsbD (s : State) (k : InputNo) (c : Chan) :
    (s.standing k).getLsbD c.val = (claimOf (s.list c) (.input k)).isSome := by
  unfold State.standing
  rw [foldl_standing allChannels (fun d => (claimOf (s.list d) (.input k)).isSome)]
  simp [mem_allChannels]

/-- Settles O21. -/
theorem readersReport : Obligations.ReadersReport := by
  unfold Obligations.ReadersReport
  refine ⟨fun s p tag h => h.read nofun rfl rfl, fun s p tag i e h hf he => h.read (fun _ => hf) rfl ?entry,
    fun s p tag c index hi h => ⟨_, rfl, h.read nofun rfl ?channel⟩,
    fun s p tag k h => ⟨s.standing k, s.standing_getLsbD k, h.read nofun rfl ?input⟩⟩
  case entry =>
    unfold readEntryBody
    rw [readSlotNo_byte]
    simp only [he]
  case channel =>
    unfold readChannelBody
    rw [readChannelIndex_bytes c hi]
    simp only [State.claimPage, List.append_assoc, List.cons_append, List.nil_append]
    rfl
  case input =>
    unfold readInputBody
    rw [readInputNo_byte]
    rfl

/-! ### Pages -/

/-- The first `n` of an ascending list are those up to the last of them. -/
theorem mem_take_ascending {l : List SlotNo} (h : l.Pairwise (fun i j => i.val < j.val)) {n : Nat} {last : SlotNo}
    (hl : (l.take n).getLast? = some last) (i : SlotNo) : i ∈ l.take n ↔ i ∈ l ∧ i.val < last.val + 1 := by
  have hsplit : l = l.take n ++ l.drop n := (List.take_append_drop n l).symm
  obtain ⟨front, hfront⟩ := List.getLast?_eq_some_iff.1 hl
  have hlast : last ∈ l.take n := by rw [hfront]; simp
  have htake : (l.take n).Pairwise (fun i j => i.val < j.val) := h.sublist (List.take_sublist n l)
  rw [hsplit, List.pairwise_append] at h
  obtain ⟨-, -, hcross⟩ := h
  constructor
  · intro hi
    refine ⟨List.mem_of_mem_take hi, ?_⟩
    rw [hfront, List.mem_append, List.mem_singleton] at hi
    rw [hfront, List.pairwise_append] at htake
    rcases hi with hi | rfl
    · have := htake.2.2 i hi last (List.mem_singleton.2 rfl)
      omega
    · omega
  · rintro ⟨hi, hlt⟩
    rw [hsplit, List.mem_append] at hi
    rcases hi with hi | hi
    · exact hi
    · have := hcross last hlast i hi
      omega

/-- Settles O22: the page is the front of the ascending list of matches, and the next cursor is the one after its last. -/
theorem pagesReport : Obligations.PagesReport := by
  unfold Obligations.PagesReport
  refine ⟨fun s p tag k hk h => ⟨_, rfl, h.read nofun rfl ?dates⟩,
    fun s p tag payload f h hf hr => ⟨s.found f, nextCursor (s.found f), h.read (fun _ => hf) rfl ?entries, ?page⟩⟩
  case dates =>
    unfold listDatesBody
    rw [readDateIndex_byte hk]
    rfl
  case entries =>
    unfold findEntriesBody
    rw [hr]
    rfl
  case page =>
    have hmem : ∀ i, i ∈ (List.finRange 256).filter (fun i => decide (f.cursor ≤ i.val) && f.admits (s.slot i)) ↔
        f.cursor ≤ i.val ∧ f.admits (s.slot i) = true := fun i => by simp
    have hsorted : ((List.finRange 256).filter fun i => decide (f.cursor ≤ i.val) && f.admits (s.slot i)).Pairwise
        (fun i j => i.val < j.val) := (List.pairwise_lt_finRange 256).filter _
    have hlen : (s.found f).length ≤ 24 := List.length_take_le _ _
    refine ⟨hsorted.sublist (List.take_sublist _ _), hlen, ?_⟩
    by_cases hfull : (s.found f).length = 24
    · obtain ⟨last, hlast⟩ : ∃ last, (s.found f).getLast? = some last :=
        Option.isSome_iff_exists.1 (by
          rw [List.getLast?_isSome]
          rintro h0
          rw [h0] at hfull
          cases hfull)
      have hc : nextCursor (s.found f) = last.val + 1 := by
        unfold nextCursor
        rw [if_pos (show (s.found f).length = Config.findPage from hfull), hlast]
      rw [hc]
      refine ⟨last.isLt, fun _ => hfull, fun i => ?_⟩
      rw [State.found, mem_take_ascending hsorted hlast i, hmem]
      tauto
    · have hc : nextCursor (s.found f) = 256 := if_neg hfull
      have hall : s.found f = (List.finRange 256).filter fun i => decide (f.cursor ≤ i.val) && f.admits (s.slot i) := by
        refine List.take_of_length_le ?_
        have := List.length_take (i := 24)
          (l := (List.finRange 256).filter fun i => decide (f.cursor ≤ i.val) && f.admits (s.slot i))
        have hlt : (s.found f).length < 24 := lt_of_le_of_ne hlen hfull
        unfold State.found at hlt
        simp only [Config.findPage] at hlt ⊢
        omega
      rw [hc, hall]
      refine ⟨le_refl _, fun h => absurd h (lt_irrefl _), fun i => ?_⟩
      rw [hmem]
      have := i.isLt
      tauto

end Sys2Proof.Machine
end

section
/-! PROOFS. The commands of the clock and of the exception date set (O23, O24, O25; sections 2.3 and 8.4). -/

namespace Sys2Proof.Machine

variable {s : State} {p : Port} {tag : Byte}

/-! ### The shared steps, once each -/

/-- An accepted SET_CLOCK (R159). -/
theorem State.applySetClock_eq (s : State) (m : Moment) :
    s.applySetClock m =
      { s with
        clock := { date := m.date, hour := m.time.hour, minute := m.time.minute, second := m.second, valid := true }
        timebase := { s.timebase with subSecond := 0 }
        dates :=
          { records := retirePast s.dates.records m.date
            today := dayClassOf (retirePast s.dates.records m.date) m.date }
        engine := s.engine.resyncAt m } := by
  unfold State.applySetClock
  rw [State.requestResync_eq]
  rfl

/-- A change of the records (R28, R32). -/
theorem State.recordsChanged_eq (s : State) (records : List DateRecord) :
    s.recordsChanged records =
      { s with
        dates := { records := records, today := dayClassOf records s.clock.date }
        engine :=
          if s.clock.valid = true ∧ dayClassOf records s.clock.date ≠ s.dates.today then
            s.engine.resyncAt s.clock.moment
          else s.engine } := by
  have hc : (s.withDates { s.dates with records := records }).recomputeClass =
      { s with dates := { records := records, today := dayClassOf records s.clock.date } } := rfl
  unfold State.recordsChanged
  rw [hc]
  dsimp only
  by_cases h : s.clock.valid = true ∧ dayClassOf records s.clock.date ≠ s.dates.today
  · rw [if_pos h.symm, if_pos h, State.requestResync_eq]
    rfl
  · rw [if_neg (fun hn => h hn.symm), if_neg h]

/-- TICK, where the tick period calls for it (R162). -/
theorem State.tickAt_eq (s : State) (minute : Bool) :
    ∃ pulse, s.tickAt minute =
      { s with
        attention := { s.attention with tickCause := s.attention.tickCause || s.tickCallsFor minute, pulse := pulse } } := by
  unfold State.tickAt
  cases s.tickCallsFor minute with
  | false => exact ⟨s.attention.pulse, by rw [Bool.or_false]; rfl⟩
  | true => exact ⟨_, by rw [Bool.or_true]; rfl⟩

/-- The engine at a minute boundary to the minute `now` (R40, R62, R65). -/
def Engine.boundaryAt (e : Engine) (now : Minute) : Engine :=
  if e.work.inFlight ∨ e.wipe.isSome then { e with boundaryNoted := true }
  else { e with work := .sweep now 0, boundaryNoted := false }

theorem State.engineBoundary_eq (s : State) : s.engineBoundary = s.withEngine (s.engine.boundaryAt s.clock.now) := by
  unfold State.engineBoundary Engine.boundaryAt
  simp only [Bool.or_eq_true]
  split <;> rfl

/-- The date set at a boundary to the date `d`: a date change, where the date is carried (R29, R31). -/
def DateSet.boundaryAt (x : DateSet) (changed : Bool) (d : Date) : DateSet :=
  if changed then { records := retirePast x.records d, today := dayClassOf (retirePast x.records d) d } else x

/-- A minute boundary (R152). -/
theorem State.minuteBoundary_eq (s : State) (changed : Bool) :
    ∃ pulse, s.minuteBoundary changed =
      { s with
        dates := s.dates.boundaryAt changed s.clock.date
        engine := s.engine.boundaryAt s.clock.now
        attention := { s.attention with tickCause := s.attention.tickCause || s.tickCallsFor true, pulse := pulse } } := by
  unfold State.minuteBoundary
  rw [State.engineBoundary_eq]
  obtain ⟨pulse, h⟩ := State.tickAt_eq ((if changed = true then s.dateChange else s).withEngine
    ((if changed = true then s.dateChange else s).engine.boundaryAt (if changed = true then s.dateChange else s).clock.now)) true
  refine ⟨pulse, h.trans ?_⟩
  cases changed <;> rfl

/-! ### Readers -/

theorem readDateTime_bytes {d : Date} {t : DayMinute} {second : Nat} (hd : d.possible = true) (ht : t.possible = true)
    (hs : second ≤ 59) :
    readDateTime (d.bytes ++ t.bytes ++ [byteOf second]) = some { date := d, time := t, second := second } := by
  have hdate : dateAt (d.bytes ++ t.bytes ++ [byteOf second]) 0 = d := dateAt_bytes hd rfl rfl rfl rfl
  have htime : dayMinuteAt (d.bytes ++ t.bytes ++ [byteOf second]) 3 = t := dayMinuteAt_bytes ht rfl rfl rfl
  have hsec : natAt (d.bytes ++ t.bytes ++ [byteOf second]) 5 = second := toNat_byteOf (by omega)
  unfold readDateTime
  rw [hdate, htime, hsec, if_pos ⟨rfl, hd, ht, hs⟩]

theorem readDateRecord_bytes {d : Date} (hd : d.possible = true) (ty : DayType) :
    readDateRecord (d.bytes ++ [ty.code]) = some { date := d, dayType := ty } := by
  have hdate : dateAt (d.bytes ++ [ty.code]) 0 = d := dateAt_bytes hd rfl rfl rfl rfl
  have htype : readDayType ty.code = some ty := by cases ty <;> rfl
  unfold readDateRecord
  rw [hdate, if_pos ⟨rfl, hd⟩, show byteAt (d.bytes ++ [ty.code]) 3 = ty.code from rfl, htype]
  rfl

theorem readDate_bytes {d : Date} (hd : d.possible = true) : readDate d.bytes = some d := by
  have hdate : dateAt d.bytes 0 = d := dateAt_bytes hd rfl rfl rfl rfl
  unfold readDate
  rw [hdate, if_pos ⟨rfl, hd⟩]

/-! ### The obligations -/

/-- Settles O23. -/
theorem setClockTakesTheTime : Obligations.SetClockTakesTheTime := by
  unfold Obligations.SetClockTakesTheTime
  intro s p tag d t second ha hd ht hs htb h
  have hbody : setClockBody p (d.bytes ++ t.bytes ++ [byteOf second]) s =
      (s.applySetClock { date := d, time := t, second := second }, Reply.ok []) := by
    unfold setClockBody
    rw [readDateTime_bytes hd ht hs]
    simp [ha, htb]
  refine ⟨_, h.served nofun rfl hbody ?_, ?_⟩ <;> rw [State.applySetClock_eq]
  · exact State.port_of_ports rfl rfl p
  · exact ⟨rfl, rfl, rfl, rfl⟩

theorem snapMinuteBody_nil (ha : s.allows p .calendar = true) (hv : s.clock.valid = true) :
    snapMinuteBody p [] s = (s.applySnap, Reply.ok []) := by
  unfold snapMinuteBody
  simp [ha, hv]

/-- What the boundary to the next minute makes of the state (R161). -/
theorem State.applySnap_late (h : 30 ≤ s.clock.second) :
    s.applySnap = ((s.withClock s.clock.advanceMinute).restartDivider).minuteBoundary s.clock.atLastMinute := by
  unfold State.applySnap
  rw [if_neg (Nat.not_lt.2 h)]

theorem Clock.atLastMinute_false {c : Clock} (h : c.minute < 59 ∨ c.hour < 23) : c.atLastMinute = false :=
  decide_eq_false (by omega)

theorem Clock.atLastMinute_true {c : Clock} (hm : 59 ≤ c.minute) (hh : 23 ≤ c.hour) : c.atLastMinute = true :=
  decide_eq_true ⟨hm, hh⟩

/-- TICK at a minute boundary, by the tick period (R162). -/
theorem State.tickCallsFor_true (s : State) :
    s.tickCallsFor true =
      match s.attention.tickPeriod with
      | .off => false
      | .second => true
      | .minute => true
      | .hour => decide (s.clock.minute = 0)
      | .day => decide (s.clock.hour = 0 ∧ s.clock.minute = 0) := by
  unfold State.tickCallsFor
  cases s.attention.tickPeriod <;> simp

/-- Settles O24: with seconds 30 to 59 the state is that of a minute boundary to the next minute. -/
theorem snapMinuteRounds : Obligations.SnapMinuteRounds := by
  unfold Obligations.SnapMinuteRounds
  intro s p tag ha hv h
  refine ⟨fun hs => ?_, fun hs => ?_⟩
  · have hsnap : s.applySnap = (s.withClock { s.clock with second := 0 }).restartDivider := if_pos hs
    exact (h.served nofun rfl (snapMinuteBody_nil ha hv) (s.applySnap_port)).trans (by rw [hsnap]; rfl)
  · have hsnap := State.applySnap_late hs
    obtain ⟨pulse, hb⟩ :=
      State.minuteBoundary_eq ((s.withClock s.clock.advanceMinute).restartDivider) s.clock.atLastMinute
    rw [hb] at hsnap
    refine ⟨_, h.served nofun rfl (snapMinuteBody_nil ha hv) (s.applySnap_port), ?_⟩
    rw [hsnap]
    refine ⟨rfl, fun hlast => ?_, fun hm hh => ?_, rfl, ?_⟩
    · exact congrArg (fun b => s.dates.boundaryAt b s.clock.advanceMinute.date) (Clock.atLastMinute_false hlast)
    · have hx : s.dates.boundaryAt s.clock.atLastMinute s.clock.advanceMinute.date =
          s.dates.boundaryAt true s.clock.advanceMinute.date :=
        congrArg (fun b => s.dates.boundaryAt b s.clock.advanceMinute.date) (Clock.atLastMinute_true hm hh)
      exact ⟨congrArg DateSet.records hx, (congrArg DateSet.today hx).trans
        (congrArg (fun x : DateSet => dayClassOf x.records s.clock.advanceMinute.date) hx.symm)⟩
    · exact congrArg (s.attention.tickCause || ·) (State.tickCallsFor_true _)

theorem recordFor_isSome {l : List DateRecord} {d : Date} : (recordFor l d).isSome = true ↔ ∃ r ∈ l, r.date = d := by
  simp [recordFor]

/-- Settles O25. -/
theorem dateCommandsKeepTheSet : Obligations.DateCommandsKeepTheSet := by
  unfold Obligations.DateCommandsKeepTheSet
  refine ⟨fun s p tag d ty ha hd hsound hpast hroom h => ?_, fun s p tag d ha hd hmem h => ?_⟩
  · obtain ⟨-, hordered, hpossible⟩ := hsound
    have hfree : ((recordFor s.dates.records d).isNone && decide (Config.dateCapacity ≤ s.dates.records.length)) = false := by
      rcases hroom with hr | hr
      · rw [Option.isNone_eq_false_iff.2 (recordFor_isSome.2 hr), Bool.false_and]
      · rw [decide_eq_false (show ¬Config.dateCapacity ≤ s.dates.records.length from Nat.not_le.2 hr), Bool.and_false]
    have hbody : addDateBody p (d.bytes ++ [ty.code]) s =
        (s.recordsChanged (insertRecord { date := d, dayType := ty } s.dates.records), Reply.ok []) := by
      unfold addDateBody
      rw [readDateRecord_bytes hd]
      simp only [ha, hfree]
      cases hv : s.clock.valid with
      | false => rfl
      | true => rw [hpast hv]; rfl
    refine ⟨_, h.served nofun rfl hbody (s.recordsChanged_port _), ?_⟩
    rw [State.recordsChanged_eq]
    exact ⟨rfl, insertRecord_ordered hd hpossible hordered, mem_insertRecord hordered, rfl, rfl⟩
  · have hbody : removeDateBody p d.bytes s = (s.recordsChanged (removeRecord d s.dates.records), Reply.ok []) := by
      unfold removeDateBody
      rw [readDate_bytes hd]
      simp only [ha, Option.isNone_eq_false_iff.2 (recordFor_isSome.2 hmem)]
      rfl
    refine ⟨_, h.served nofun rfl hbody (s.recordsChanged_port _), ?_⟩
    rw [State.recordsChanged_eq]
    exact ⟨rfl, rfl, rfl, rfl⟩

end Sys2Proof.Machine
end

section
/-! PROOFS. A placement in one list, and the commands that place a port's claim and take claims out (O32, O33, O34; sections 5.1,
5.2, 5.4 and 5.5). -/

namespace Sys2Proof.Machine

variable {s : State} {p : Port} {tag : Byte}

/-! ### A placement in one list (R94 to R97) -/

theorem Lifetime.isUntilEdge_iff {x : Lifetime} : x.isUntilEdge = true ↔ x = .untilEdge := by
  cases x <;> simp [Lifetime.isUntilEdge]

/-- The claims that stay when a claim of `src` is placed. -/
theorem clearedFor_eq_filter (l : List Claim) (src : Source) :
    clearedFor l src =
      l.filter (fun d => decide (d.source ≠ src ∧ (isEntrySource src = true → d.lifetime ≠ .untilEdge))) := by
  unfold clearedFor dropSource
  cases isEntrySource src with
  | false =>
    rw [if_neg (by exact nofun)]
    exact List.filter_congr fun d _ => decide_eq_decide.2 ⟨fun h => ⟨h, nofun⟩, fun h => h.1⟩
  | true =>
    rw [if_pos rfl, dropUntilEdge, List.filter_filter]
    refine List.filter_congr fun d _ => ?_
    rw [Bool.eq_iff_iff]
    simp [← Lifetime.isUntilEdge_iff]

/-- The last of an ordered list with a claim put in place: the claim itself when it stands after the last, else the last. -/
theorem getLast?_insertClaim_before {k last : Claim} {l : List Claim} (h : l.getLast? = some last)
    (hb : k.standsBefore last = true) : (insertClaim k l).getLast? = some last := by
  induction l with
  | nil => cases h
  | cons d ds ih =>
    unfold insertClaim
    split
    · rw [List.getLast?_cons, h]
      rfl
    · next hd =>
      cases ds with
      | nil =>
        cases h
        exact absurd hb hd
      | cons e es =>
        rw [List.getLast?_cons_cons] at h
        rw [List.getLast?_cons, ih h]
        rfl

theorem insertClaim_of_after {k : Claim} {l : List Claim} (h : ∀ d ∈ l, k.standsBefore d = false) :
    insertClaim k l = l ++ [k] := by
  induction l with
  | nil => rfl
  | cons d ds ih =>
    unfold insertClaim
    rw [if_neg (by rw [h d (by simp)]; exact nofun), ih fun e he => h e (by simp [he])]
    rfl

/-- The last of an ordered list stands after every other. -/
theorem ListOrdered.before_last {l : List Claim} (h : ListOrdered l) {last d : Claim} (hl : l.getLast? = some last)
    (hd : d ∈ l) : d = last ∨ d.standsBefore last = true := by
  obtain ⟨-, -, hord⟩ := h
  rw [← List.dropLast_append_getLast? last hl] at hord hd
  rcases List.mem_append.1 hd with hd | hd
  · exact .inr ((List.pairwise_append.1 hord).2.2 d hd last (List.mem_singleton.2 rfl))
  · exact .inl (List.mem_singleton.1 hd)

/-- The front of an ordered list is what is left when its last leaves. -/
theorem ListOrdered.mem_dropLast {l : List Claim} (h : ListOrdered l) {last : Claim} (hl : l.getLast? = some last)
    (d : Claim) : d ∈ l.dropLast ↔ d ∈ l ∧ d ≠ last := by
  have hsplit := List.dropLast_append_getLast? last hl
  have hnodup : l.Nodup := List.Nodup.of_map _ h.1
  rw [← hsplit, List.nodup_append] at hnodup
  obtain ⟨-, -, hcross⟩ := hnodup
  constructor
  · intro hd
    exact ⟨List.dropLast_subset l hd, hcross d hd last (List.mem_singleton.2 rfl)⟩
  · rintro ⟨hd, hne⟩
    rw [← hsplit, List.mem_append, List.mem_singleton] at hd
    rcases hd with hd | hd
    · exact hd
    · exact absurd hd hne

section Full

variable {l : List Claim} {c last : Claim}

/-- The newcomer beside eight claims of higher priority. -/
theorem placeInList_outranked (h : ListSound l) (hlen : (clearedFor l c.source).length = Config.claimCapacity)
    (hl : (clearedFor l c.source).getLast? = some last) (hp : c.priority < last.priority) :
    placeInList l c = { list := l, kept := false, displaced := none } := by
  have hord : ListOrdered (clearedFor l c.source) :=
    ListOrdered.sublist h.2 (clearedFor_sublist l c.source)
  have hafter : ∀ d ∈ clearedFor l c.source, (c.newest l).standsBefore d = false := fun d hd => by
    have hd' : last.priority ≤ d.priority := by
      rcases hord.before_last hl hd with rfl | hb
      · exact le_refl _
      · rcases Claim.standsBefore_iff.1 hb with hb | ⟨hb, -⟩ <;> omega
    refine Bool.eq_false_iff.2 fun hb => ?_
    have hk : (c.newest l).priority = c.priority := rfl
    rcases Claim.standsBefore_iff.1 hb with hb | ⟨hb, -⟩ <;> omega
  have hnine : insertNewest l c = clearedFor l c.source ++ [c.newest l] := insertClaim_of_after hafter
  have hlast : (insertNewest l c).getLast? = some (c.newest l) := by rw [hnine]; simp
  unfold placeInList
  rw [if_neg (by rw [insertNewest, length_insertClaim, hlen]; omega), overflowList, hlast]
  exact if_pos rfl

/-- The newcomer beside eight claims, the last of which it outranks. -/
theorem placeInList_outranks (h : ListSound l) (hlen : (clearedFor l c.source).length = Config.claimCapacity)
    (hl : (clearedFor l c.source).getLast? = some last) (hp : last.priority ≤ c.priority) :
    (placeInList l c).kept = true ∧ (placeInList l c).displaced = some last ∧
      ∀ d, d ∈ (placeInList l c).list ↔
        d = c.newest l ∨ d ∈ clearedFor l c.source ∧ d ≠ last ∧
          (isEntrySource last.source = true → d.lifetime ≠ .untilEdge) := by
  have hmem : last ∈ clearedFor l c.source := List.mem_of_getLast? hl
  obtain ⟨hmeml, hne⟩ := mem_clearedFor hmem
  have hk : (c.newest l).priority = c.priority := rfl
  have ho : last.order < (c.newest l).order := order_lt_nextOrder hmeml
  have hbefore : (c.newest l).standsBefore last = true := Claim.standsBefore_iff.2 (by omega)
  have hlast : (insertNewest l c).getLast? = some last := getLast?_insertClaim_before hl hbefore
  have hdrop := (insertNewest_listOrdered h.2 c).mem_dropLast hlast
  have hnewest : c.newest l ≠ last := fun he => hne (by rw [← he]; rfl)
  have hplace : placeInList l c = overflowList l (insertNewest l c) c.source := by
    unfold placeInList
    rw [if_neg (by rw [insertNewest, length_insertClaim, hlen]; omega)]
  have hover : overflowList l (insertNewest l c) c.source =
      if isEntrySource last.source then
        { list := (insertNewest l c).dropLast.filter fun d => decide (d.source = c.source) || !d.lifetime.isUntilEdge,
          kept := true, displaced := some last }
      else { list := (insertNewest l c).dropLast, kept := true, displaced := some last } := by
    unfold overflowList
    rw [hlast]
    exact if_neg hne
  rw [hplace, hover]
  cases he : isEntrySource last.source with
  | false =>
    refine ⟨rfl, rfl, fun d => (hdrop d).trans ?_⟩
    rw [mem_insertNewest_iff]
    constructor
    · rintro ⟨rfl | hd, hn⟩
      · exact .inl rfl
      · exact .inr ⟨hd, hn, nofun⟩
    · rintro (rfl | ⟨hd, hn, -⟩)
      · exact ⟨.inl rfl, hnewest⟩
      · exact ⟨.inr hd, hn⟩
  | true =>
    refine ⟨rfl, rfl, fun d => (List.mem_filter.trans (and_congr_left' (hdrop d))).trans ?_⟩
    rw [mem_insertNewest_iff]
    constructor
    · rintro ⟨⟨rfl | hd, hn⟩, hf⟩
      · exact .inl rfl
      · refine .inr ⟨hd, hn, fun _ hu => ?_⟩
        rw [hu] at hf
        simp [Lifetime.isUntilEdge, (mem_clearedFor hd).2] at hf
    · rintro (rfl | ⟨hd, hn, hu⟩)
      · exact ⟨⟨.inl rfl, hnewest⟩, by simp [Claim.newest]⟩
      · refine ⟨⟨.inr hd, hn⟩, ?_⟩
        have : d.lifetime.isUntilEdge = false := Bool.eq_false_iff.2 fun h => hu rfl (Lifetime.isUntilEdge_iff.1 h)
        simp [this]

end Full

/-- Settles O32: the case split is the one on the number of claims that stay, and on the priority of the last of them. -/
theorem placementKeepsOrder : Obligations.PlacementKeepsOrder := by
  unfold Obligations.PlacementKeepsOrder
  intro l c h
  refine ⟨placeInList_listSound h c, fun hlen => placeInList_room hlen c, clearedFor l c.source, c.newest l,
    clearedFor_eq_filter l c.source, rfl, fun d hd => order_lt_nextOrder hd, fun hlen => ?_,
    fun last hlen hl => ⟨placeInList_outranked h hlen hl, placeInList_outranks h hlen hl⟩, fun hk d hd hne hp => ?_⟩
  · have hplace : placeInList l c = { list := insertNewest l c, kept := true, displaced := none } :=
      if_pos (by rw [insertNewest, length_insertClaim]; exact hlen)
    rw [hplace]
    exact ⟨rfl, rfl, fun d => mem_insertNewest_iff⟩
  · have hord : d.order < (c.newest l).order := by
      rcases placeInList_mem hd with hd | hd
      · exact order_lt_nextOrder hd
      · exact absurd hd hne
    have hk : (c.newest l).priority = c.priority := rfl
    exact Claim.standsBefore_iff.2 (by omega)

/-! ### FORCE_CHANNEL (R105, R106) -/

theorem getElem?_placeOf {l : List Claim} {k : Claim} {src : Source} (hk : k ∈ l) (hs : k.source = src)
    (hu : ∀ d ∈ l, d.source = src → d = k) : l[placeOf l src]? = some k := by
  have hlt : placeOf l src < l.length := List.findIdx_lt_length_of_exists ⟨k, hk, decide_eq_true hs⟩
  rw [List.getElem?_eq_getElem hlt]
  have hsrc : (l[placeOf l src]).source = src := of_decide_eq_true (List.findIdx_getElem (w := hlt))
  rw [hu _ (List.getElem_mem hlt) hsrc]

theorem forceChannelBody_kept {payload : List Byte} {f : Force} (ha : s.allows p .force = true)
    (hr : readForce payload = some f) (hv : s.clock.valid = true)
    (hk : (placeInList (s.list f.channel) (f.claim p)).kept = true) :
    forceChannelBody p payload s =
      (s.place f.channel (f.claim p),
        Reply.ok
          [byteOf (placeOf ((s.place f.channel (f.claim p)).list f.channel) (.port p)),
            byteOf ((s.place f.channel (f.claim p)).list f.channel).length]) := by
  have hk' : s.keeps f.channel (f.claim p) = true := hk
  unfold forceChannelBody
  rw [hr]
  simp [ha, hv, hk']

/-- Settles O33: what a placement does (`place_placesClaim`), with the place of the port's claim in the list. -/
theorem forceChannelPlaces : Obligations.ForceChannelPlaces := by
  unfold Obligations.ForceChannelPlaces
  intro s p tag payload f h ha hr hv
  have hserved : ∀ hk : (placeInList (s.list f.channel) (f.claim p)).kept = true, exec (.forceChannel p) s =
      .next ((s.place f.channel (f.claim p)).answered p tag _) := fun hk =>
    h.served nofun rfl (forceChannelBody_kept ha hr hv hk) ((place_eval s _ _).port p)
  have hplaces := State.place_placesClaim s f.channel (f.claim p)
  have hlist := hplaces.1
  refine ⟨fun hk => ?_, fun hk => ?_, fun hlen => ?_⟩
  · have hfull : s.refusedWith p .forceChannel payload .full := by
      refine ⟨State.not_denied rfl ha, Option.isSome_of_eq_some hr, ?_, State.not_lacksObject (by decide),
        State.not_isStale rfl, State.not_inWrongState (by decide), .inr (.inr ⟨rfl, f, hr, hk⟩)⟩
      simp [State.lacksClock, hv]
    exact exec_refused h nofun hfull
  · obtain ⟨hmem, huniq⟩ := placeInList_kept hk
    refine ⟨_, _, (f.claim p).newest (s.list f.channel), hserved hk, ?_, rfl, rfl, rfl, rfl, hplaces⟩
    rw [hlist]
    exact getElem?_placeOf hmem rfl huniq
  · have hroom := placeInList_room hlen (f.claim p)
    obtain ⟨-, hfollows, honly, hnone, -, -, hkept⟩ := hplaces
    obtain ⟨htable, hattention⟩ := hnone (by rw [hroom])
    refine ⟨_, hserved (by rw [hroom]), by rw [hlist, hroom], hfollows, honly, ?_⟩
    rw [htable, hattention] at hkept
    exact hkept

/-! ### Claims that leave (R98, R102, R107) -/

/-- The claim of a source that is no entry's leaves alone, where it stands. -/
theorem removeFromList_of_not_entry {src : Source} (h : isEntrySource src = false) (l : List Claim) :
    removeFromList l src = l.filter (fun d => decide (d.source ≠ src)) := by
  unfold removeFromList
  cases hc : claimOf l src with
  | none =>
    exact (List.filter_eq_self.2 fun d hd => decide_eq_true (claimOf_eq_none.1 hc d hd)).symm
  | some k =>
    rw [h]
    rfl

/-- What taking out such a claim does to the state. -/
theorem State.remove_of_not_entry {src : Source} (h : isEntrySource src = false) (s : State) (c : Chan) :
    (s.remove c src).list c = (s.list c).filter (fun d => decide (d.source ≠ src)) ∧ s.followsList (s.remove c src) c ∧
      s.onlyChannel (s.remove c src) c ∧
      s.remove c src = { s with arbiter := (s.remove c src).arbiter, channels := (s.remove c src).channels } := by
  refine ⟨?_, State.setList_follows s c _, State.setList_onlyChannel s c _, State.setList_kept s c _⟩
  rw [State.remove, State.setList_list_self, removeFromList_of_not_entry h]

theorem exec_timedExpiry (hr : s.running = true) {c : Chan} {src : Source} {k : Claim} {minutes remaining : Nat}
    (hk : claimOf (s.list c) src = some k) (hl : k.lifetime = .timed minutes remaining) :
    exec (.timedExpiry c src) s = .next (if remaining = 0 then s.remove c src else s) := by
  have he : exec (.timedExpiry c src) s = .next (s.timedExpires c src) := rfl
  have hd : s.timedDue c src = decide (remaining = 0) := by
    unfold State.timedDue
    rw [hk]
    simp only [hl]
    cases remaining <;> rfl
  rw [he, State.timedExpires, hr, hd, Bool.true_and]
  simp only [decide_eq_true_eq]

/-- Settles O34. -/
theorem claimsLeave : Obligations.ClaimsLeave := by
  unfold Obligations.ClaimsLeave
  refine ⟨fun s p tag c k h ha hk => ?_, fun s c source k minutes remaining hr hs hk hl => ⟨fun hpos => ?_, fun h0 => ?_⟩⟩
  · have hbody : releaseChannelBody p [byteOf c.val] s =
        (s.remove c (.port p), Reply.ok [byteOf ((s.remove c (.port p)).list c).length]) := by
      unfold releaseChannelBody
      rw [readChannelNo_byte]
      simp [ha, hk]
    exact ⟨_, h.served nofun rfl hbody ((remove_eval s _ _).port p), s.remove_of_not_entry rfl c⟩
  · rw [exec_timedExpiry hr hk hl, if_neg (Nat.pos_iff_ne_zero.1 hpos)]
  · have hsrc : isEntrySource source = false := by
      cases source with
      | entry i => cases hs
      | input k => rfl
      | port p => rfl
    exact ⟨_, (exec_timedExpiry hr hk hl).trans (by rw [if_pos h0]), s.remove_of_not_entry hsrc c⟩

end Sys2Proof.Machine
end

section
/-! PROOFS. What is done to the lists of several channels, one after the other, and the binding and the qualified events of an input
(O37, O49; sections 7.2 to 7.4). -/

namespace Sys2Proof.Machine

variable {s t : State} {p : Port} {tag : Byte}

/-! ### One channel -/

/-- Channel `c` stands alike in two states. -/
structure State.AlikeAt (s t : State) (c : Chan) : Prop where
  list : t.list c = s.list c
  lastTop : t.lastTop c = s.lastTop c
  channel : t.channel c = s.channel c
  changed : t.arbiter.changed[c] = s.arbiter.changed[c]
  notice : t.attention.channelNotices[c] = s.attention.channelNotices[c]

theorem State.AlikeAt.refl (s : State) (c : Chan) : s.AlikeAt s c := ⟨rfl, rfl, rfl, rfl, rfl⟩

theorem State.AlikeAt.trans {u : State} {c : Chan} (h : s.AlikeAt t c) (k : t.AlikeAt u c) : s.AlikeAt u c :=
  ⟨k.list.trans h.list, k.lastTop.trans h.lastTop, k.channel.trans h.channel, k.changed.trans h.changed,
    k.notice.trans h.notice⟩

/-- From `s` to `t` the lists with their reports, the channels, and the entries and notices of displaced claims may have changed,
and nothing else. -/
def State.ListWork (s t : State) : Prop :=
  t = { s with
    table := t.table, arbiter := t.arbiter, channels := t.channels
    attention :=
      { s.attention with
        entryNotices := t.attention.entryNotices, channelNotices := t.attention.channelNotices
        pulse := t.attention.pulse } }

theorem State.ListWork.refl (s : State) : s.ListWork s := rfl

theorem State.ListWork.trans {u : State} (h : s.ListWork t) (k : t.ListWork u) : s.ListWork u := by
  unfold State.ListWork at h k ⊢
  rw [k, h]

theorem State.ListWork.engine (h : s.ListWork t) : t.engine = s.engine := by
  rw [h]

theorem State.ListWork.configs (h : s.ListWork t) : t.configs = s.configs := by
  rw [h]

theorem State.ListWork.bindings (h : s.ListWork t) : t.bindings = s.bindings := by
  rw [h]

/-- What follows a change of a list is told by the channel as it stands before and after. -/
theorem State.followsList_of_alike {s' t' : State} {c : Chan} (hs : s.AlikeAt s' c) (ht : t.AlikeAt t' c)
    (he : s'.engine = s.engine) (hc : s'.configs = s.configs) (h : s.followsList t c) : s'.followsList t' c := by
  have hconf : s'.config c = s.config c := congrArg (fun x : Vector ChannelConfig 24 => x[c]) hc
  unfold State.followsList at h ⊢
  rw [he, hs.lastTop, hs.channel, hs.changed, hs.list, hconf, ht.lastTop, ht.channel, ht.changed, ht.list]
  exact h

/-! ### Several channels, one after the other -/

section Fold

variable {f : State → Chan → State} {R : Chan → State → State → Prop}

/-- A step on each channel of a list: when a step on one channel leaves the others alike, and what it does on its own is told by
that channel alone, each channel of the list has its step and the rest are alike. -/
theorem foldl_channels (hwork : ∀ (s : State) (c : Chan), s.ListWork (f s c))
    (hother : ∀ (s : State) (c d : Chan), d ≠ c → s.AlikeAt (f s c) d) (hstep : ∀ (s : State) (c : Chan), R c s (f s c))
    (hcongr : ∀ {s s' t t' : State} {c : Chan}, s.AlikeAt s' c → t.AlikeAt t' c → s.ListWork s' → R c s t → R c s' t')
    {l : List Chan} (hl : l.Nodup) (s : State) :
    s.ListWork (l.foldl f s) ∧ (∀ c ∈ l, R c s (l.foldl f s)) ∧ ∀ c, c ∉ l → s.AlikeAt (l.foldl f s) c := by
  induction l generalizing s with
  | nil => exact ⟨.refl s, nofun, fun c _ => .refl s c⟩
  | cons d l ih =>
    obtain ⟨hd, hl⟩ := List.nodup_cons.1 hl
    obtain ⟨hw, hin, hout⟩ := ih hl (f s d)
    have hback : ∀ {c : Chan}, c ≠ d → (f s d).AlikeAt s c := fun hc =>
      let h := hother s d _ hc
      ⟨h.list.symm, h.lastTop.symm, h.channel.symm, h.changed.symm, h.notice.symm⟩
    have hworkback : (f s d).ListWork s := by
      have h := hwork s d
      unfold State.ListWork at h ⊢
      rw [h]
    refine ⟨(hwork s d).trans hw, fun c hc => ?_, fun c hc => ?_⟩
    · rcases List.mem_cons.1 hc with rfl | hc
      · exact hcongr (.refl s c) (hout c hd) (.refl s) (hstep s c)
      · have hne : c ≠ d := fun h => hd (h ▸ hc)
        exact hcongr (hback hne) (.refl _ c) hworkback (hin c hc)
    · obtain ⟨hne, hc⟩ := not_or.1 (mt List.mem_cons.2 hc)
      exact (hother s d c hne).trans (hout c hc)

end Fold

/-! ### BIND_INPUT (R135, R136) -/

theorem State.remove_listWork {src : Source} (h : isEntrySource src = false) (s : State) (c : Chan) :
    s.ListWork (s.remove c src) := by
  obtain ⟨-, -, -, hk⟩ := s.remove_of_not_entry h c
  unfold State.ListWork
  rw [hk]

theorem State.onlyChannel.alike {c d : Chan} (h : s.onlyChannel t c) (hn : t.attention = s.attention) (hd : d ≠ c) :
    s.AlikeAt t d := by
  obtain ⟨hl, ht, hc, hg⟩ := h.2 d hd
  exact ⟨hl, ht, hc, hg, by rw [hn]⟩

/-- A claim of the source has left the list of channel `c`, and what follows has followed. -/
def State.Withdrawn (src : Source) (c : Chan) (s t : State) : Prop :=
  t.list c = (s.list c).filter (fun d => decide (d.source ≠ src)) ∧ s.followsList t c

theorem State.Withdrawn.of_alike {src : Source} {s' t' : State} {c : Chan} (hs : s.AlikeAt s' c) (ht : t.AlikeAt t' c)
    (he : s'.engine = s.engine) (hc : s'.configs = s.configs) (h : State.Withdrawn src c s t) :
    State.Withdrawn src c s' t' := by
  obtain ⟨hl, hf⟩ := h
  exact ⟨by rw [ht.list, hs.list, hl], State.followsList_of_alike hs ht he hc hf⟩

theorem State.withdrawInput_withdrawn (s : State) (k : InputNo) :
    s.ListWork (s.withdrawInput k) ∧ ∀ c, State.Withdrawn (.input k) c s (s.withdrawInput k) := by
  obtain ⟨hw, hin, -⟩ := foldl_channels (f := fun t c => t.remove c (.input k)) (R := State.Withdrawn (.input k))
    (fun s c => s.remove_listWork rfl c)
    (fun s c d hd => by
      obtain ⟨-, -, ho, hk⟩ := s.remove_of_not_entry (src := .input k) rfl c
      exact ho.alike (by rw [hk]) hd)
    (fun s c => by
      obtain ⟨hl, hf, -, -⟩ := s.remove_of_not_entry (src := .input k) rfl c
      exact ⟨hl, hf⟩)
    (fun hs ht hw h => h.of_alike hs ht hw.engine hw.configs) allChannels_nodup s
  exact ⟨hw, fun c => hin c (mem_allChannels c)⟩

/-- Taking an input's claims out touches neither entries nor notices. -/
theorem State.withdrawInput_kept (s : State) (k : InputNo) :
    ∃ arbiter channels, s.withdrawInput k = { s with arbiter := arbiter, channels := channels } := by
  unfold State.withdrawInput
  generalize allChannels = l
  induction l generalizing s with
  | nil => exact ⟨_, _, rfl⟩
  | cons d l ih =>
    obtain ⟨-, -, -, hk⟩ := s.remove_of_not_entry (src := .input k) rfl d
    obtain ⟨arbiter, channels, hrest⟩ := ih (s.remove d (.input k))
    exact ⟨arbiter, channels, by rw [List.foldl_cons, hrest, hk]⟩

theorem restartDebounce_eq (left : Option Nat) (b : Byte) :
    restartDebounce left b =
      if left = none then none else if left = some 0 then some 0 else some b.toNat := by
  rcases left with _ | _ | n <;> simp [restartDebounce]

/-- Settles O37. -/
theorem bindInputReplaces : Obligations.BindInputReplaces := by
  unfold Obligations.BindInputReplaces
  intro s p tag payload k b h ha hr
  have hbody : bindInputBody p payload s = (s.bindInput k b, Reply.ok []) := by
    unfold bindInputBody
    rw [hr]
    simp [ha]
  obtain ⟨-, hwithdrawn⟩ := s.withdrawInput_withdrawn k
  obtain ⟨arbiter, channels, hkept⟩ := s.withdrawInput_kept k
  have hinput : ∀ j, (s.withdrawInput k).input j = s.input j := fun j => by rw [hkept]; rfl
  have hbinding : ∀ j, (s.withdrawInput k).binding j = s.binding j := fun j => by rw [hkept]; rfl
  have hu : s.bindInput k b = ((s.withdrawInput k).withBinding k b).withInput k
      { s.input k with debounceLeft := restartDebounce (s.input k).debounceLeft b.debounce } := by
    rw [← hinput k]
    rfl
  have hexec := h.served nofun rfl hbody (s.bindInput_port k b)
  rw [hu] at hexec
  refine ⟨_, hexec, ?_⟩
  rw [← restartDebounce_eq]
  generalize s.withdrawInput k = w at hwithdrawn hkept hinput hbinding
  refine ⟨?_, State.input_withInput_self _ _ _, fun c => (hwithdrawn c).1, fun c => ?_, fun j hj => ⟨?_, ?_⟩, ?_⟩
  · rw [State.withInput_binding, State.binding_withBinding_self]
  · exact State.followsList_of_alike (.refl s c) ⟨rfl, rfl, rfl, rfl, rfl⟩ rfl rfl (hwithdrawn c).2
  · rw [State.withInput_binding, State.binding_withBinding_ne _ _ hj, hbinding]
  · rw [State.input_withInput_ne _ _ hj, State.withBinding_input, hinput]
  · rw [hkept]
    rfl

end Sys2Proof.Machine
end

section
/-! PROOFS. The qualified events of an input (O49; sections 7.3 and 7.4). -/

namespace Sys2Proof.Machine

variable {s t : State} {k : InputNo} {press : Bool}

/-! ### What an event does on one channel of the mask -/

/-- What the event makes of the input's claim on channel `c`, by the binding's mode. -/
def State.actOn (s : State) (k : InputNo) (press : Bool) (c : Chan) : InputAct :=
  (s.binding k).mode.act press (claimOf (s.list c) (.input k)).isSome

/-- The act carried out. -/
def State.carryOut (s : State) (k : InputNo) (c : Chan) : InputAct → State
  | .keep => s
  | .remove => s.remove c (.input k)
  | .place => s.placeInputClaim k c

theorem State.pressOn_eq (s : State) (k : InputNo) (c : Chan) : s.pressOn k c = s.carryOut k c (s.actOn k true c) := by
  unfold State.pressOn State.actOn State.toggleInputClaim
  cases (s.binding k).mode <;> cases (claimOf (s.list c) (.input k)).isSome <;> rfl

theorem State.releaseOn_eq (s : State) (k : InputNo) (c : Chan) : s.releaseOn k c = s.carryOut k c (s.actOn k false c) := by
  unfold State.releaseOn State.actOn
  cases (s.binding k).mode <;> rfl

/-- The input's claim has been placed on channel `c` as far as the list keeps it, with the notice of the channel. -/
structure State.Placed (claim : Claim) (c : Chan) (s t : State) : Prop where
  kept : (placeInList (s.list c) claim).kept = true →
    t.list c = (placeInList (s.list c) claim).list ∧ s.followsList t c
  notKept : (placeInList (s.list c) claim).kept = false →
    t.list c = s.list c ∧ t.lastTop c = s.lastTop c ∧ t.channel c = s.channel c ∧
      t.arbiter.changed[c] = s.arbiter.changed[c]
  raised : (placeInList (s.list c) claim).kept = false ∨ (∃ src, isEntrySource src = false ∧ s.pushesOut c claim src) →
    t.attention.channelNotices[c] = s.attention.channelNotices[c] ||| ChannelCause.displaced.bit
  quiet : (placeInList (s.list c) claim).kept = true → (∀ src, isEntrySource src = false → ¬s.pushesOut c claim src) →
    t.attention.channelNotices[c] = s.attention.channelNotices[c]

/-- What the event has done on channel `c` from `s` to `t`. -/
structure State.Acted (k : InputNo) (press : Bool) (c : Chan) (s t : State) : Prop where
  keep : s.actOn k press c = .keep → s.AlikeAt t c
  remove : s.actOn k press c = .remove →
    State.Withdrawn (.input k) c s t ∧ t.attention.channelNotices[c] = s.attention.channelNotices[c]
  place : s.actOn k press c = .place → State.Placed ((s.binding k).claim k) c s t

/-- The engine, the channels' settings and the bindings are the same in two states. -/
structure State.SettingsAlike (s t : State) : Prop where
  engine : t.engine = s.engine
  configs : t.configs = s.configs
  bindings : t.bindings = s.bindings

theorem State.ListWork.settings (h : s.ListWork t) : s.SettingsAlike t := ⟨h.engine, h.configs, h.bindings⟩

section Alike

variable {s' t' : State} {c : Chan}

theorem State.pushesOut_of_alike (h : s.AlikeAt s' c) {claim : Claim} {src : Source} :
    s'.pushesOut c claim src ↔ s.pushesOut c claim src := by
  unfold State.pushesOut
  rw [h.list]

theorem State.actOn_of_alike (h : s.AlikeAt s' c) (hw : s.SettingsAlike s') : s'.actOn k press c = s.actOn k press c := by
  have hb : s'.binding k = s.binding k := congrArg (fun x : Vector Binding 8 => x[k]) hw.bindings
  unfold State.actOn
  rw [hb, h.list]

theorem State.Placed.of_alike {claim : Claim} (hs : s.AlikeAt s' c) (ht : t.AlikeAt t' c) (hw : s.SettingsAlike s')
    (h : State.Placed claim c s t) : State.Placed claim c s' t' := by
  constructor
  · rw [hs.list, ht.list]
    intro hk
    obtain ⟨hl, hf⟩ := h.kept hk
    exact ⟨hl, State.followsList_of_alike hs ht hw.engine hw.configs hf⟩
  · rw [hs.list, ht.list, hs.lastTop, ht.lastTop, hs.channel, ht.channel, hs.changed, ht.changed]
    exact h.notKept
  · simp only [State.pushesOut_of_alike hs]
    rw [hs.list, hs.notice, ht.notice]
    exact h.raised
  · simp only [State.pushesOut_of_alike hs]
    rw [hs.list, hs.notice, ht.notice]
    exact h.quiet

theorem State.AlikeAt.symm (h : s.AlikeAt t c) : t.AlikeAt s c :=
  ⟨h.list.symm, h.lastTop.symm, h.channel.symm, h.changed.symm, h.notice.symm⟩

theorem State.Acted.of_alike (hs : s.AlikeAt s' c) (ht : t.AlikeAt t' c) (hw : s.SettingsAlike s')
    (h : State.Acted k press c s t) : State.Acted k press c s' t' := by
  have hb : s'.binding k = s.binding k := congrArg (fun x : Vector Binding 8 => x[k]) hw.bindings
  constructor
  · rw [State.actOn_of_alike hs hw]
    exact fun ha => hs.symm.trans ((h.keep ha).trans ht)
  · rw [State.actOn_of_alike hs hw, hs.notice, ht.notice]
    exact fun ha => ⟨(h.remove ha).1.of_alike hs ht hw.engine hw.configs, (h.remove ha).2⟩
  · rw [State.actOn_of_alike hs hw, hb]
    exact fun ha => (h.place ha).of_alike hs ht hw

end Alike

/-! ### The placement of an input's claim -/

theorem State.placesClaim_listWork {c : Chan} {claim : Claim} (h : s.placesClaim t c claim) : s.ListWork t := by
  obtain ⟨-, -, -, -, -, -, hk⟩ := h
  exact hk

/-- The channel notices after a placement: those of the channel alone change, and only when a claim of an input or a port is
pushed out. -/
theorem State.placesClaim_notice {c : Chan} {claim : Claim} (h : s.placesClaim t c claim) :
    (∀ d, d ≠ c → t.attention.channelNotices[d] = s.attention.channelNotices[d]) ∧
      ((∃ src, isEntrySource src = false ∧ s.pushesOut c claim src) →
        t.attention.channelNotices[c] = s.attention.channelNotices[c] ||| ChannelCause.displaced.bit) := by
  by_cases hp : ∃ src, isEntrySource src = false ∧ s.pushesOut c claim src
  · obtain ⟨src, hs, hp⟩ := hp
    obtain ⟨-, -, -, -, -, hraise, -⟩ := h
    obtain ⟨-, -, hn⟩ := hraise src hs hp
    rw [hn]
    refine ⟨fun d hd => ?_, fun _ => by simp⟩
    have hne : c.val ≠ d.val := fun h => hd (Fin.ext h.symm)
    simp [Vector.getElem_set_ne, hne]
  · have hn := State.placesClaim_channelNotices h fun src hs hp' => hp ⟨src, hs, hp'⟩
    rw [hn]
    exact ⟨fun _ _ => rfl, fun h => absurd h hp⟩

/-- A claim of the input that the list does not keep. -/
theorem State.raiseChannel_alike (s : State) {c d : Chan} (hd : d ≠ c) (cause : ChannelCause) :
    s.AlikeAt (s.raiseChannel c cause) d := by
  have hne : c.val ≠ d.val := fun h => hd (Fin.ext h.symm)
  refine ⟨rfl, rfl, rfl, rfl, ?_⟩
  simp [State.raiseChannel, Vector.getElem_set_ne, hne]

theorem State.placeInputClaim_cases (s : State) (k : InputNo) (c : Chan) :
    (placeInList (s.list c) ((s.binding k).claim k)).kept = true ∧
        s.placesClaim (s.placeInputClaim k c) c ((s.binding k).claim k) ∨
      (placeInList (s.list c) ((s.binding k).claim k)).kept = false ∧
        s.placeInputClaim k c = s.raiseChannel c .displaced := by
  cases hk : (placeInList (s.list c) ((s.binding k).claim k)).kept with
  | true =>
    have he : s.placeInputClaim k c = s.place c ((s.binding k).claim k) := if_pos hk
    exact .inl ⟨rfl, he ▸ s.place_placesClaim c _⟩
  | false =>
    have hn : ¬s.keeps c ((s.binding k).claim k) = true := by
      unfold State.keeps
      rw [hk]
      exact nofun
    exact .inr ⟨rfl, if_neg hn⟩

theorem State.placeInputClaim_listWork (s : State) (k : InputNo) (c : Chan) : s.ListWork (s.placeInputClaim k c) := by
  rcases s.placeInputClaim_cases k c with ⟨-, h⟩ | ⟨-, h⟩
  · exact State.placesClaim_listWork h
  · rw [h]
    rfl

theorem State.placeInputClaim_alike (s : State) (k : InputNo) {c d : Chan} (hd : d ≠ c) :
    s.AlikeAt (s.placeInputClaim k c) d := by
  rcases s.placeInputClaim_cases k c with ⟨-, h⟩ | ⟨-, h⟩
  · have hn := (State.placesClaim_notice h).1 d hd
    obtain ⟨-, -, ho, -⟩ := h
    obtain ⟨hl, ht, hc, hg⟩ := ho.2 d hd
    exact ⟨hl, ht, hc, hg, hn⟩
  · rw [h]
    exact s.raiseChannel_alike hd _

theorem State.placeInputClaim_placed (s : State) (k : InputNo) (c : Chan) :
    State.Placed ((s.binding k).claim k) c s (s.placeInputClaim k c) := by
  rcases s.placeInputClaim_cases k c with ⟨hk, h⟩ | ⟨hk, h⟩
  · have hn := (State.placesClaim_notice h).2
    have hq := State.placesClaim_channelNotices h
    obtain ⟨hl, hf, -⟩ := h
    refine ⟨fun _ => ⟨hl, hf⟩, fun h => absurd (hk.symm.trans h) nofun, fun hr => hn ?_, fun _ hx => by rw [hq hx]⟩
    rcases hr with hr | hr
    · exact absurd (hk.symm.trans hr) nofun
    · exact hr
  · rw [h]
    refine ⟨fun h => absurd (hk.symm.trans h) nofun, fun _ => ⟨rfl, rfl, rfl, rfl⟩, fun _ => ?_,
      fun h => absurd (hk.symm.trans h) nofun⟩
    simp [State.raiseChannel]

/-! ### One channel of the mask -/

theorem State.remove_attention (s : State) (c : Chan) (src : Source) : (s.remove c src).attention = s.attention := by
  have h := State.setList_kept s c (removeFromList (s.list c) src)
  unfold State.remove
  rw [h]

theorem State.remove_slot (s : State) (c : Chan) (src : Source) (i : SlotNo) : (s.remove c src).slot i = s.slot i :=
  State.setList_slot s c _ i

theorem State.carryOut_listWork (s : State) (k : InputNo) (c : Chan) (a : InputAct) : s.ListWork (s.carryOut k c a) := by
  cases a with
  | keep => exact .refl s
  | remove => exact s.remove_listWork rfl c
  | place => exact s.placeInputClaim_listWork k c

theorem State.remove_alike {src : Source} (h : isEntrySource src = false) (s : State) {c d : Chan} (hd : d ≠ c) :
    s.AlikeAt (s.remove c src) d := by
  obtain ⟨-, -, ho, hk⟩ := s.remove_of_not_entry h c
  exact ho.alike (by rw [hk]) hd

theorem State.carryOut_alike (s : State) (k : InputNo) {c d : Chan} (hd : d ≠ c) (a : InputAct) :
    s.AlikeAt (s.carryOut k c a) d := by
  cases a with
  | keep => exact .refl s d
  | remove => exact s.remove_alike rfl hd
  | place => exact s.placeInputClaim_alike k hd

theorem State.carryOut_acted (s : State) (k : InputNo) (press : Bool) (c : Chan) :
    State.Acted k press c s (s.carryOut k c (s.actOn k press c)) := by
  refine ⟨fun h => ?_, fun h => ?_, fun h => ?_⟩ <;> rw [h]
  · exact .refl s c
  · obtain ⟨hl, hf, -, -⟩ := s.remove_of_not_entry (src := .input k) rfl c
    exact ⟨⟨hl, hf⟩, by rw [State.carryOut, State.remove_attention]⟩
  · exact s.placeInputClaim_placed k c

/-! ### The entries that lose their claims -/

/-- The event has, on the channels of the list `l`, taken the claim of slot `i` where it pushed it out, and left the slot alone
where it pushed out none. -/
def State.LosesOn (k : InputNo) (press : Bool) (l : List Chan) (i : SlotNo) (s t : State) : Prop :=
  ((∃ c ∈ l, s.actOn k press c = .place ∧ s.pushesOut c ((s.binding k).claim k) (.entry i)) → s.entryDisplaced t i) ∧
    ((∀ c ∈ l, s.actOn k press c = .place → ¬s.pushesOut c ((s.binding k).claim k) (.entry i)) →
      t.slot i = s.slot i ∧ t.attention.entryNotices[i] = s.attention.entryNotices[i])

theorem State.entryDisplaced_of_unchanged {u : State} {i : SlotNo} (h : s.slot i = t.slot i)
    (hn : s.attention.entryNotices[i] = t.attention.entryNotices[i]) (hd : t.entryDisplaced u i) :
    s.entryDisplaced u i := by
  unfold State.entryDisplaced at hd ⊢
  rw [h, hn]
  exact hd

/-- A claim lost twice is lost once. -/
theorem State.entryDisplaced_trans {u : State} {i : SlotNo} (h : s.entryDisplaced t i) (hd : t.entryDisplaced u i) :
    s.entryDisplaced u i := by
  obtain ⟨hnone, hsome⟩ := h
  obtain ⟨hnone', hsome'⟩ := hd
  refine ⟨fun he => ?_, fun e he => ?_⟩
  · obtain ⟨hs, hn⟩ := hnone he
    obtain ⟨hs', hn'⟩ := hnone' (by rw [hs]; exact he)
    exact ⟨hs'.trans hs, hn'.trans hn⟩
  · obtain ⟨hs, hn⟩ := hsome e he
    obtain ⟨hs', hn'⟩ := hsome' { e with held := false } (by rw [hs])
    refine ⟨by rw [hs', hs], ?_⟩
    rw [hn', hn, BitVec.or_assoc, BitVec.or_self]

theorem State.carryOut_loses (s : State) (k : InputNo) (press : Bool) (c : Chan) (i : SlotNo) :
    State.LosesOn k press [c] i s (s.carryOut k c (s.actOn k press c)) := by
  have honly : ∀ {x : InputAct}, s.actOn k press c = x → x ≠ .place →
      ¬∃ d ∈ [c], s.actOn k press d = .place ∧ s.pushesOut d ((s.binding k).claim k) (.entry i) := by
    rintro x hx hne ⟨d, hd, ha, -⟩
    cases List.mem_singleton.1 hd
    exact hne (hx.symm.trans ha)
  cases ha : s.actOn k press c with
  | keep => exact ⟨fun h => absurd h (honly ha nofun), fun _ => ⟨rfl, rfl⟩⟩
  | remove =>
    refine ⟨fun h => absurd h (honly ha nofun), fun _ => ⟨s.remove_slot c _ i, ?_⟩⟩
    rw [State.carryOut, State.remove_attention]
  | place =>
    rcases s.placeInputClaim_cases k c with ⟨-, h⟩ | ⟨hk, h⟩
    · refine ⟨?_, fun hp => State.placesClaim_others h (hp c (by simp) ha)⟩
      rintro ⟨d, hd, -, hp⟩
      cases List.mem_singleton.1 hd
      obtain ⟨-, -, -, -, hlost, -⟩ := h
      exact (hlost i hp).1
    · refine ⟨?_, fun _ => ?_⟩
      · rintro ⟨d, hd, -, hp⟩
        cases List.mem_singleton.1 hd
        exact absurd hp (State.not_pushesOut hk _)
      · rw [State.carryOut, h]
        exact ⟨rfl, rfl⟩

theorem foldl_loses (k : InputNo) (press : Bool) (i : SlotNo) {l : List Chan} (hl : l.Nodup) (s : State) :
    State.LosesOn k press l i s (l.foldl (fun t c => t.carryOut k c (t.actOn k press c)) s) := by
  induction l generalizing s with
  | nil => exact ⟨fun ⟨c, hc, _⟩ => absurd hc nofun, fun _ => ⟨rfl, rfl⟩⟩
  | cons d l ih =>
    obtain ⟨hd, hl⟩ := List.nodup_cons.1 hl
    obtain ⟨hlost, hkept⟩ := s.carryOut_loses k press d i
    obtain ⟨hlost', hkept'⟩ := ih hl (s.carryOut k d (s.actOn k press d))
    have hwork := s.carryOut_listWork k d (s.actOn k press d)
    have hb : (s.carryOut k d (s.actOn k press d)).binding k = s.binding k :=
      congrArg (fun x : Vector Binding 8 => x[k]) hwork.bindings
    have hsame : ∀ c ∈ l, ((s.carryOut k d (s.actOn k press d)).actOn k press c = s.actOn k press c) ∧
        ∀ claim src, (s.carryOut k d (s.actOn k press d)).pushesOut c claim src ↔ s.pushesOut c claim src := fun c hc =>
      have hne : c ≠ d := fun h => hd (h ▸ hc)
      have halike := s.carryOut_alike k hne (s.actOn k press d)
      ⟨State.actOn_of_alike halike hwork.settings, fun claim src => State.pushesOut_of_alike halike⟩
    rw [hb] at hlost' hkept'
    rw [List.foldl_cons]
    by_cases hrest : ∃ c ∈ l, s.actOn k press c = .place ∧ s.pushesOut c ((s.binding k).claim k) (.entry i)
    · obtain ⟨c, hc, ha, hp⟩ := hrest
      have hrest' := hlost' ⟨c, hc, by rw [(hsame c hc).1]; exact ha, ((hsame c hc).2 _ _).2 hp⟩
      refine ⟨fun _ => ?_, fun hn => absurd hp (hn c (List.mem_cons_of_mem _ hc) ha)⟩
      by_cases hfirst : s.actOn k press d = .place ∧ s.pushesOut d ((s.binding k).claim k) (.entry i)
      · exact State.entryDisplaced_trans (hlost ⟨d, by simp, hfirst⟩) hrest'
      · obtain ⟨hs, hn⟩ := hkept fun c' hc' ha' hp' => by
          cases List.mem_singleton.1 hc'
          exact hfirst ⟨ha', hp'⟩
        exact State.entryDisplaced_of_unchanged hs.symm hn.symm hrest'
    · obtain ⟨hs', hn'⟩ := hkept' fun c hc ha hp =>
        hrest ⟨c, hc, (hsame c hc).1.symm.trans ha, ((hsame c hc).2 _ _).1 hp⟩
      refine ⟨fun ⟨c, hc, ha, hp⟩ => ?_, fun hn => ?_⟩
      · rcases List.mem_cons.1 hc with rfl | hc
        · obtain ⟨hnone, hsome⟩ := hlost ⟨c, by simp, ha, hp⟩
          exact ⟨fun he => ⟨hs'.trans (hnone he).1, hn'.trans (hnone he).2⟩,
            fun e he => ⟨hs'.trans (hsome e he).1, hn'.trans (hsome e he).2⟩⟩
        · exact absurd ⟨c, hc, ha, hp⟩ hrest
      · obtain ⟨hs, hnn⟩ := hkept fun c hc ha => by
          cases List.mem_singleton.1 hc
          exact hn d (by simp) ha
        exact ⟨hs'.trans hs, hn'.trans hnn⟩

/-! ### The qualified event -/

/-- The state once the level of input `k` is qualified and its latch is set, before the event acts. -/
def State.latched (s : State) (k : InputNo) (press : Bool) : State :=
  s.irqFollow
    (s.withInput k
      { stable := s.pins.inputs[k], debounceLeft := none, pressSeen := (s.input k).pressSeen || press
        releaseSeen := (s.input k).releaseSeen || !press })

/-- The event carried out on the channels of the mask, one after the other. -/
def State.eventOn (s : State) (k : InputNo) (press : Bool) : State :=
  (maskChannels (s.binding k).mask).foldl (fun t c => t.carryOut k c (t.actOn k press c)) s

theorem State.qualify_eq (s : State) (k : InputNo) (press : Bool) (hp : press = (s.pins.inputs[k] != (s.binding k).lowActive)) :
    s.qualify k =
      if ((s.binding k).enabled && s.clock.valid) = true then (s.latched k press).eventOn k press
      else s.latched k press := by
  have hpress : State.pressOn = fun t k c => t.carryOut k c (t.actOn k true c) := by
    funext t k c
    exact t.pressOn_eq k c
  have hrelease : State.releaseOn = fun t k c => t.carryOut k c (t.actOn k false c) := by
    funext t k c
    exact t.releaseOn_eq k c
  unfold State.qualify
  dsimp only
  rw [← hp, hpress, hrelease]
  cases press with
  | true =>
    rw [if_pos rfl, State.latched, Bool.or_true, Bool.not_true, Bool.or_false]
    rfl
  | false =>
    rw [if_neg (by exact nofun), State.latched, Bool.or_false, Bool.not_false, Bool.or_true]
    rfl

theorem mem_maskChannels {mask : BitVec 24} {c : Chan} : c ∈ maskChannels mask ↔ mask.getLsbD c.val = true := by
  simp [maskChannels, mem_allChannels]

theorem maskChannels_nodup (mask : BitVec 24) : (maskChannels mask).Nodup := allChannels_nodup.filter _

theorem State.latched_alike (s : State) (k : InputNo) (press : Bool) (c : Chan) : (s.latched k press).AlikeAt s c :=
  ⟨rfl, rfl, rfl, rfl, rfl⟩

theorem State.ListWork.after_latched (h : (s.latched k press).ListWork t) :
    t = { s with
      inputs := t.inputs, table := t.table, arbiter := t.arbiter, channels := t.channels
      attention :=
        { s.attention with
          entryNotices := t.attention.entryNotices, channelNotices := t.attention.channelNotices
          pulse := t.attention.pulse } } := by
  unfold State.ListWork at h
  rw [h]
  rfl

/-- What the event has done on a channel, in the words of the obligation. -/
theorem State.Acted.told {c : Chan} (h : State.Acted k press c s t) :
    (s.actOn k press c = .keep →
        t.list c = s.list c ∧ t.lastTop c = s.lastTop c ∧ t.channel c = s.channel c ∧
          t.arbiter.changed[c] = s.arbiter.changed[c]) ∧
      (s.actOn k press c = .remove →
        t.list c = (s.list c).filter (fun d => decide (d.source ≠ .input k)) ∧ s.followsList t c) ∧
      (s.actOn k press c = .place → (placeInList (s.list c) ((s.binding k).claim k)).kept = true →
        t.list c = (placeInList (s.list c) ((s.binding k).claim k)).list ∧ s.followsList t c) ∧
      (s.actOn k press c = .place → (placeInList (s.list c) ((s.binding k).claim k)).kept = false →
        t.list c = s.list c ∧ t.lastTop c = s.lastTop c ∧ t.channel c = s.channel c ∧
          t.arbiter.changed[c] = s.arbiter.changed[c]) ∧
      (s.actOn k press c = .place →
        (placeInList (s.list c) ((s.binding k).claim k)).kept = false ∨
          (∃ src, isEntrySource src = false ∧ s.pushesOut c ((s.binding k).claim k) src) →
        t.attention.channelNotices[c] = s.attention.channelNotices[c] ||| ChannelCause.displaced.bit) ∧
      (s.actOn k press c ≠ .place ∨
          (placeInList (s.list c) ((s.binding k).claim k)).kept = true ∧
            (∀ src, isEntrySource src = false → ¬s.pushesOut c ((s.binding k).claim k) src) →
        t.attention.channelNotices[c] = s.attention.channelNotices[c]) := by
  obtain ⟨hkeep, hremove, hplace⟩ := h
  refine ⟨fun ha => ?_, fun ha => (hremove ha).1, fun ha => (hplace ha).kept, fun ha => (hplace ha).notKept,
    fun ha => (hplace ha).raised, fun hq => ?_⟩
  · obtain ⟨hl, ht, hc, hg, -⟩ := hkeep ha
    exact ⟨hl, ht, hc, hg⟩
  · cases ha : s.actOn k press c with
    | keep => exact (hkeep ha).notice
    | remove => exact (hremove ha).2
    | place =>
      rcases hq with hq | ⟨hk, hq⟩
      · exact absurd ha hq
      · exact (hplace ha).quiet hk hq

/-- What the event does on every channel, and to every slot. -/
theorem State.eventOn_acts (s : State) (k : InputNo) (press : Bool) :
    s.ListWork (s.eventOn k press) ∧
      (∀ c ∈ maskChannels (s.binding k).mask, State.Acted k press c s (s.eventOn k press)) ∧
      (∀ c, c ∉ maskChannels (s.binding k).mask → s.AlikeAt (s.eventOn k press) c) ∧
      ∀ i, State.LosesOn k press (maskChannels (s.binding k).mask) i s (s.eventOn k press) := by
  obtain ⟨hw, hin, hout⟩ := foldl_channels (f := fun t c => t.carryOut k c (t.actOn k press c)) (R := State.Acted k press)
    (fun s c => s.carryOut_listWork k c _) (fun s c d hd => s.carryOut_alike k hd _) (fun s c => s.carryOut_acted k press c)
    (fun hs ht hw h => h.of_alike hs ht hw.settings) (maskChannels_nodup (s.binding k).mask) s
  exact ⟨hw, hin, hout, fun i => foldl_loses k press i (maskChannels_nodup _) s⟩

theorem State.ListWork.inputs (h : s.ListWork t) : t.inputs = s.inputs := by
  rw [h]

/-- The act on a channel, in the words of the obligation. -/
theorem State.actOn_mask (s : State) (k : InputNo) (press : Bool) (c : Chan) :
    (if (s.binding k).mask.getLsbD c.val = true then (s.binding k).mode.act press (claimOf (s.list c) (.input k)).isSome
      else .keep) = if c ∈ maskChannels (s.binding k).mask then s.actOn k press c else .keep := by
  simp only [mem_maskChannels]
  rfl

theorem Binding.claim_eq (b : Binding) (k : InputNo) :
    b.claim k =
      { source := .input k, priority := b.priority, action := b.action
        lifetime :=
          match b.mode with
          | .momentary => .momentary
          | .timed minutes => .timed minutes (minutes * 60)
          | .toggle => .latch
          | .untilEdge => .untilEdge
        order := 0 } := by
  unfold Binding.claim Mode.lifetime
  cases b.mode <;> rfl

theorem exec_inputPinChange (k : InputNo) (high : Bool) : exec (.inputPinChange k high) s = .next (s.inputPin k high) := rfl

theorem exec_debounceExpiry (k : InputNo) : exec (.debounceExpiry k) s = .next (s.debounceExpires k) := rfl

/-- The pin of an input in a part that runs (R137). -/
theorem State.inputPin_of_running (hr : s.running = true) (k : InputNo) (high : Bool) :
    s.inputPin k high =
      { s with
        pins := { s.pins with inputs := s.pins.inputs.set k high }
        inputs :=
          s.inputs.set k
            (if high = (s.input k).stable then { s.input k with debounceLeft := none }
            else if (s.input k).debounceLeft = none then
              { s.input k with debounceLeft := some (s.binding k).debounce.toNat }
            else s.input k) } := by
  have hsame : s.inputs.set k (s.input k) = s.inputs := Vector.set_getElem_self _
  unfold State.inputPin
  rw [if_neg (by rw [hr]; exact nofun)]
  by_cases h1 : high = (s.input k).stable
  · rw [if_pos h1, if_pos h1]
    rfl
  · by_cases h2 : (s.input k).debounceLeft = none
    · rw [if_neg h1, if_neg h1, if_pos h2, if_pos h2]
      rfl
    · rw [if_neg h1, if_neg h1, if_neg h2, if_neg h2, hsame]
      rfl

/-- The debounce timer expires at its last tick alone (R137). -/
theorem State.debounceExpires_eq (hr : s.running = true) (k : InputNo) :
    s.debounceExpires k =
      if (s.input k).debounceLeft = some 0 ∧ s.pins.inputs[k] ≠ (s.input k).stable then s.qualify k else s := by
  unfold State.debounceExpires State.debounceDue
  rw [hr, Bool.true_and]
  simp only [Bool.and_eq_true, decide_eq_true_eq]

/-- Settles O49: the event is carried out channel by channel (`eventOn_acts`). -/
theorem inputsAreQualified : Obligations.InputsAreQualified := by
  unfold Obligations.InputsAreQualified
  refine ⟨fun s k high => ⟨fun hr => ?_, fun hr => ?_⟩, fun s k h => ?_, fun s k hr hd hne => ?_⟩
  · rw [exec_inputPinChange, State.inputPin, if_pos (by rw [hr]; rfl)]
    rfl
  · rw [exec_inputPinChange, State.inputPin_of_running hr]
  · have hn : s.debounceDue k = false := by
      unfold State.debounceDue
      rcases h with h | h
      · rw [decide_eq_false h, Bool.false_and]
      · rw [decide_eq_false (not_not.2 h), Bool.and_false]
    rw [exec_debounceExpiry, State.debounceExpires, hn, Bool.and_false]
    rfl
  · have hexec : exec (.debounceExpiry k) s = .next (s.qualify k) := by
      rw [exec_debounceExpiry, State.debounceExpires_eq hr, if_pos ⟨hd, hne⟩]
    obtain ⟨press, hpress⟩ : ∃ press, press = (s.pins.inputs[k] != (s.binding k).lowActive) := ⟨_, rfl⟩
    have hself : (s.latched k press).input k = _ := State.input_withInput_self _ _ _
    have hother : ∀ j, j ≠ k → (s.latched k press).input j = s.input j := fun j hj => State.input_withInput_ne _ _ hj
    rw [State.qualify_eq s k press hpress] at hexec
    by_cases hon : ((s.binding k).enabled && s.clock.valid) = true
    · obtain ⟨hwork, hin, hout, hslots⟩ := (s.latched k press).eventOn_acts k press
      rw [if_pos hon] at hexec
      have hinputs : ∀ j, ((s.latched k press).eventOn k press).input j = (s.latched k press).input j := fun j =>
        congrArg (fun x : Vector InputRun 8 => x[j]) hwork.inputs
      refine ⟨_, press, hexec, hpress, (hinputs k).trans hself, fun j hj => (hinputs j).trans (hother j hj), fun hoff => ?_,
        fun _ _ => ⟨?_, (s.binding k).claim k, _, Binding.claim_eq _ k, fun c => ⟨rfl, ?_⟩, fun i => ?_⟩⟩
      · rw [Bool.and_eq_true] at hon
        rcases hoff with h | h
        · exact absurd (h.symm.trans hon.1) nofun
        · exact absurd (h.symm.trans hon.2) nofun
      · exact hwork.after_latched
      · rw [State.actOn_mask]
        by_cases hc : c ∈ maskChannels (s.binding k).mask
        · rw [if_pos hc]
          exact ((hin c hc).of_alike (s.latched_alike k press c) (.refl _ c) ⟨rfl, rfl, rfl⟩).told
        · rw [if_neg hc]
          have halike := hout c hc
          exact ⟨fun _ => ⟨halike.list, halike.lastTop, halike.channel, halike.changed⟩, nofun, nofun, nofun, nofun,
            fun _ => halike.notice⟩
      · obtain ⟨hlost, hkept⟩ := hslots i
        refine ⟨fun ⟨c, ha, hp⟩ => ?_, fun hn => hkept fun c hc ha => hn c ?_⟩
        · rw [State.actOn_mask] at ha
          by_cases hc : c ∈ maskChannels (s.binding k).mask
          · rw [if_pos hc] at ha
            exact hlost ⟨c, hc, ha, hp⟩
          · rw [if_neg hc] at ha
            cases ha
        · rw [State.actOn_mask, if_pos (show c ∈ maskChannels (s.binding k).mask from hc)]
          exact ha
    · rw [if_neg hon] at hexec
      refine ⟨_, press, hexec, hpress, hself, hother, fun _ => rfl, fun he hv => ?_⟩
      exact absurd (by rw [he, hv]; rfl) hon

end Sys2Proof.Machine
end

section
/-! PROOFS. The commands that create, resume, suspend and delete an entry (O26, O27, O29, O30; sections 3.5, 4.2, 4.4 and 4.5). -/

namespace Sys2Proof.Machine

variable {s : State} {p : Port} {tag : Byte} {i : SlotNo} {e : Entry}

/-! ### The admission of a command (R51) -/

/-- The admission stays due, or is left to the sweep's visit. -/
theorem State.admitAfterCommand_waits
    (h : s.clock.valid = false ∨ ∃ m cursor, s.engine.work = .sweep m cursor ∧ cursor ≤ i.val) :
    s.admitAfterCommand i = s := by
  unfold State.admitAfterCommand
  cases hv : s.clock.valid with
  | false => rfl
  | true =>
    rcases h with h | ⟨m, cursor, hw, hc⟩
    · exact absurd (hv.symm.trans h) nofun
    · rw [hw]
      exact if_neg (Nat.not_lt.2 hc)

/-- The admission is made at once. -/
theorem State.admitAfterCommand_admits (hv : s.clock.valid = true)
    (h : s.engine.work = .idle ∨ ∃ m cursor, s.engine.work = .sweep m cursor ∧ i.val < cursor) :
    s.admitAfterCommand i = s.admitOne i s.clock.now := by
  unfold State.admitAfterCommand
  rw [if_neg (by rw [hv]; exact nofun)]
  rcases h with hw | ⟨m, cursor, hw, hc⟩
  · rw [hw]
  · rw [hw]
    exact if_pos hc

theorem State.admitAfterCommand_follows (he : (s.slot i).entry = some e) :
    s.admissionFollows (s.admitAfterCommand i) i e := by
  refine ⟨State.admitAfterCommand_waits, fun hv hw => ?_⟩
  rw [State.admitAfterCommand_admits hv hw]
  exact State.admitOne_admits he s.clock.now

/-- An entry that does not wait to rejoin, has budget left and has no open occurrence is passed by. -/
theorem State.admits.passes {t : State} {m : Minute} (h : s.admits t i e m) (hr : e.rejoinWindow m = none)
    (hb : e.remBudget ≠ some 0) (ha : e.admissible s.dates s.clock.date m = none) : s.passesBy t i e := by
  unfold State.admits at h
  rw [hr] at h
  dsimp only at h
  rw [if_neg hb, ha] at h
  exact h

/-- An entry that does not wait to rejoin, has budget left and whose occurrence is open is activated for it. -/
theorem State.admits.activates {t : State} {m : Minute} {d : Date} (h : s.admits t i e m) (hr : e.rejoinWindow m = none)
    (hb : e.remBudget ≠ some 0) (ha : e.admissible s.dates s.clock.date m = some d) : s.activates t i e d := by
  unfold State.admits at h
  rw [hr] at h
  dsimp only at h
  rw [if_neg hb, ha] at h
  exact h

/-- An entry that waits to rejoin the open window rejoins it. -/
theorem State.admits.rejoins {t : State} {m close : Minute} (h : s.admits t i e m) (hr : e.rejoinWindow m = some close) :
    s.rejoins t i e close := by
  unfold State.admits at h
  rw [hr] at h
  exact h

/-- Without the rejoin flag nothing is rejoined. -/
theorem Entry.rejoinWindow_none (h : e.rejoin = false) (m : Minute) : e.rejoinWindow m = none := by
  unfold Entry.rejoinWindow
  rw [h]
  cases e.defn.kind with
  | event duration => rfl
  | span stop =>
    cases e.stamp with
    | none => rfl
    | some stamp => exact if_neg (by simp)

/-! ### ADD_ENTRY (R74) -/

theorem State.lowestEmpty_eq (hi : (s.slot i).entry = none) (hlt : ∀ j : SlotNo, j.val < i.val → (s.slot j).entry ≠ none) :
    s.lowestEmpty = some i :=
  find?_finRange (by rw [hi]; rfl) fun j hj => Option.isNone_eq_false_iff.2 (Option.isSome_iff_ne_none.2 (hlt j hj))

/-- The entry in its slot, before its admission. -/
def State.added (s : State) (i : SlotNo) (defn : Definition) (p : Port) : State :=
  { s with table := s.table.set i { gen := (s.slot i).gen + 1, entry := some (newEntry defn p) } }

theorem State.added_slot (s : State) (i : SlotNo) (defn : Definition) (p : Port) :
    (s.added i defn p).slot i = { gen := (s.slot i).gen + 1, entry := some (newEntry defn p) } :=
  State.slot_withSlot_self _ _ _

theorem exec_addEntry {payload : List Byte} {defn : Definition} (h : s.asks p .addEntry tag payload) (hf : s.tableFree = true)
    (hr : readDescriptor payload = some defn) (hi : (s.slot i).entry = none)
    (hlt : ∀ j : SlotNo, j.val < i.val → (s.slot j).entry ≠ none) :
    exec (.addEntry p) s =
      .next
        (State.answered ((s.added i defn p).admitAfterCommand i) p tag
          (Reply.ok [byteOf i.val, (((s.added i defn p).admitAfterCommand i).slot i).gen])) := by
  refine h.served (fun _ => hf) rfl ?_ (((admitAfterCommand_eval _ i).port p).trans (State.withSlot_port _ _ _ p))
  unfold addEntryBody
  rw [hr]
  dsimp only
  rw [State.lowestEmpty_eq hi hlt]
  rfl

/-- Settles O26. -/
theorem addEntryTakesLowestSlot : Obligations.AddEntryTakesLowestSlot := by
  unfold Obligations.AddEntryTakesLowestSlot
  intro s p tag payload defn i h hf hr hi hlt
  have hexec := exec_addEntry h hf hr hi hlt
  have hslot := s.added_slot i defn p
  refine ⟨newEntry defn p, rfl, fun hwait => ?_, fun hv hw hnone hb => ?_⟩
  · rw [hexec, State.admitAfterCommand_waits (s := s.added i defn p) hwait, hslot]
    rfl
  · obtain ⟨hadmits, hengine⟩ :=
      (State.admitAfterCommand_follows (s := s.added i defn p) (i := i) (congrArg Slot.entry hslot)).2 hv hw
    have hpasses := hadmits.passes (Entry.rejoinWindow_none rfl _) hb hnone
    have hu : (s.added i defn p).admitAfterCommand i =
        { s with
          table :=
            s.table.set i
              { gen := (s.slot i).gen + 1, entry := some { newEntry defn p with admissionDue := false } } } := by
      unfold State.passesBy at hpasses
      rw [hpasses, hengine, hslot]
      unfold State.added
      rw [Vector.set_set]
      rfl
    rw [hexec, hu]
    have hself : ∀ x : Slot, State.slot { s with table := s.table.set i x } i = x := fun x => State.slot_withSlot_self s i x
    rw [hself]

/-- The window of an open SPAN is found: today's first, yesterday's otherwise (R50). -/
theorem openWindow_eq_some {defn : Definition} {stop : DayMinute} {dates : DateSet} {m : Minute} {d : Date}
    (hs : defn.startsOn dates m.date d = true) (hw : inWindow d defn.start stop m = true)
    (hd : d = m.date ∨
      d = m.date.previous ∧
        ¬(defn.startsOn dates m.date m.date = true ∧ inWindow m.date defn.start stop m = true)) :
    defn.openWindow stop none dates m.date m = some d := by
  have hstamp : ∀ x, stampNames none x defn.start = false := fun _ => rfl
  unfold Definition.openWindow
  rcases hd with rfl | ⟨rfl, hn⟩
  · rw [List.find?_cons_of_pos (by rw [hs, hw, hstamp]; rfl)]
  · rw [List.find?_cons_of_neg (by simpa [hstamp] using hn), List.find?_cons_of_pos (by rw [hs, hw, hstamp]; rfl)]

theorem gen_add_two (g : Byte) : g + 1 + 1 = g + 2 := by rw [BitVec.add_assoc]; rfl

/-- Settles O27: the entry's occurrence is open, so its admission activates it. -/
theorem addEntryJoinsOpenWindow : Obligations.AddEntryJoinsOpenWindow := by
  unfold Obligations.AddEntryJoinsOpenWindow
  intro s p tag payload defn i d h hf hr hi hlt hv hw hopen
  have hexec := exec_addEntry h hf hr hi hlt
  have hslot := s.added_slot i defn p
  obtain ⟨hadmits, hengine⟩ :=
    (State.admitAfterCommand_follows (s := s.added i defn p) (i := i) (congrArg Slot.entry hslot)).2 hv (.inl hw)
  have hbudget : (newEntry defn p).remBudget ≠ some 0 := by
    obtain ⟨-, -, -, -, -, -, -, -, hb, -⟩ := readDescriptor_sound hr
    exact hb
  have hadmissible : (newEntry defn p).admissible s.dates s.clock.date s.clock.now = some d := by
    have hdefn : (newEntry defn p).defn = defn := rfl
    unfold Entry.admissible
    rw [hdefn]
    cases hk : defn.kind with
    | span stop =>
      rw [hk] at hopen
      obtain ⟨hs, hwin, hd⟩ := hopen
      exact openWindow_eq_some (m := s.clock.now) hs hwin hd
    | event duration =>
      rw [hk] at hopen
      obtain ⟨rfl, hstart, htoday⟩ := hopen
      refine if_pos ?_
      rw [decide_eq_true hstart.symm, show s.clock.now.date = s.clock.date from rfl, htoday]
      rfl
  have hactivates := hadmits.activates (Entry.rejoinWindow_none rfl _) hbudget hadmissible
  refine ⟨_, s.added i defn p, rfl, hactivates, hengine, ?_⟩
  have hgen := congrArg Slot.gen hactivates.1
  rw [hexec, hgen, hslot, gen_add_two]

/-! ### Commands with a handle (R70) -/

/-- A good handle from a port that may change the entry. -/
theorem State.withHandle_good {α : Type} {payload : List Byte} {x : α} {k : SlotNo → Entry → α → State × Reply}
    (hi : slotAt payload = i) (hm : s.mayChange p i = true) (he : (s.slot i).entry = some e) :
    s.withHandle p payload (some (i, (s.slot i).gen, x)) k = k i e x := by
  unfold State.withHandle
  rw [hi, hm, if_neg (by simp)]
  dsimp only
  rw [he]
  exact if_neg (by simp)

theorem readBareHandle_bytes (i : SlotNo) (gen : Byte) : readBareHandle [byteOf i.val, gen] = some (i, gen, ()) := by
  have h : readBareHandle [byteOf i.val, gen] = some (slotAt [byteOf i.val, gen], gen, ()) := rfl
  rw [h, slotAt_byteOf]

theorem readResume_bytes (i : SlotNo) (gen : Byte) (rejoin : Bool) :
    readResume [byteOf i.val, gen, if rejoin then 1 else 0] = some (i, gen, rejoin) := by
  have h : readResume [byteOf i.val, gen, if rejoin then 1 else 0] =
      some (slotAt [byteOf i.val, gen, if rejoin then 1 else 0], gen, rejoin) := by
    cases rejoin <;> rfl
  rw [h, slotAt_byteOf]

/-! ### SUSPEND_ENTRY (R81, R82) -/

section Handle

variable (hf : s.tableFree = true) (he : (s.slot i).entry = some e) (hm : s.mayChange p i = true)

include hf he hm

theorem exec_suspendArmed (h : s.asks p .suspendEntry tag [byteOf i.val, (s.slot i).gen]) (hs : e.state = .armed) :
    exec (.suspendEntry p) s =
      .next (State.answered (s.suspendArmed i e) p tag (Reply.ok [((s.suspendArmed i e).slot i).gen])) := by
  refine h.served (fun _ => hf) rfl ?_ (State.withSlot_port _ _ _ p)
  unfold suspendEntryBody
  rw [readBareHandle_bytes, State.withHandle_good (slotAt_byteOf i _) hm he, hs]

theorem exec_suspendActive (h : s.asks p .suspendEntry tag [byteOf i.val, (s.slot i).gen]) (hs : e.state = .active) :
    exec (.suspendEntry p) s =
      .next (State.answered (s.suspendActive i e) p tag (Reply.ok [((s.suspendActive i e).slot i).gen])) := by
  refine h.served (fun _ => hf) rfl ?_ ((suspendActive_eval s i e).port p)
  unfold suspendEntryBody
  rw [readBareHandle_bytes, State.withHandle_good (slotAt_byteOf i _) hm he, hs]

theorem exec_resume {rejoin : Bool} (h : s.asks p .resumeEntry tag [byteOf i.val, (s.slot i).gen, if rejoin then 1 else 0])
    (hs : e.state = .suspended) :
    exec (.resumeEntry p) s =
      .next (State.answered (s.resume i e rejoin) p tag (Reply.ok [((s.resume i e rejoin).slot i).gen])) := by
  refine h.served (fun _ => hf) rfl ?_ ((resume_eval s i e rejoin).port p)
  unfold resumeEntryBody
  rw [readResume_bytes, State.withHandle_good (slotAt_byteOf i _) hm he, hs]

theorem exec_delete (h : s.asks p .deleteEntry tag [byteOf i.val, (s.slot i).gen]) :
    exec (.deleteEntry p) s =
      .next (State.answered (s.deleteSlot i) p tag (Reply.ok [((s.deleteSlot i).slot i).gen])) := by
  refine h.served (fun _ => hf) rfl ?_ ((deleteSlot_eval s i).port p)
  unfold deleteEntryBody
  rw [readBareHandle_bytes, State.withHandle_good (slotAt_byteOf i _) hm he]

end Handle

/-! ### What the commands on an ACTIVE entry leave -/

/-- The claim of the entry in slot `i` is withdrawn, its notices become `v` and its slot `x`. -/
def State.cleared (s : State) (i : SlotNo) (x : Slot) (v : BitVec 5) (pulse : Bool) : State :=
  { ((s.withdrawEntryClaim i).withSlot i x) with
    attention := { s.attention with entryNotices := s.attention.entryNotices.set i v, pulse := pulse } }

theorem State.withdrawEntryClaim_attention (s : State) (i : SlotNo) : (s.withdrawEntryClaim i).attention = s.attention := by
  unfold State.withdrawEntryClaim
  split
  · rfl
  · split
    · exact s.remove_attention _ _
    · rfl

/-- SUSPEND_ENTRY on an ACTIVE entry (R82). -/
theorem State.suspendActive_eq (he : (s.slot i).entry = some e) :
    ∃ pulse, s.suspendActive i e =
      s.cleared i { gen := (s.slot i).gen + 1, entry := some { e.ended .suspended with interrupted := true } }
        (s.attention.entryNotices[i] ||| (e.defn.notify &&& EntryCause.ended.bit)) pulse := by
  have hw : ((s.withdrawEntryClaim i).slot i).entry = some e := by rw [State.withdrawEntryClaim_slot, he]
  obtain ⟨pulse, hraise⟩ := State.raiseEntry_eq hw .ended
  have hgen := congrArg Slot.gen (s.withdrawEntryClaim_slot i i)
  refine ⟨pulse, ?_⟩
  unfold State.suspendActive State.cleared
  rw [hraise, State.withdrawEntryClaim_attention]
  generalize s.withdrawEntryClaim i = w at hgen
  rw [← hgen]
  rfl

/-- An emptied slot (R85, R88). -/
theorem State.deleteSlot_eq (s : State) (i : SlotNo) :
    ∃ pulse, s.deleteSlot i = s.cleared i { gen := (s.slot i).gen + 1, entry := none } 0 pulse := by
  have hgen := congrArg Slot.gen (s.withdrawEntryClaim_slot i i)
  have hattention := s.withdrawEntryClaim_attention i
  refine ⟨(s.deleteSlot i).attention.pulse, ?_⟩
  unfold State.deleteSlot State.cleared
  generalize s.withdrawEntryClaim i = w at hgen hattention
  rw [← hgen, ← hattention]
  rfl

/-! ### The obligations -/

theorem State.suspendArmed_slot (s : State) (i : SlotNo) (e : Entry) :
    ((s.suspendArmed i e).slot i).gen = (s.slot i).gen + 1 :=
  congrArg Slot.gen (State.slot_withSlot_self _ _ _)

/-- Settles O29. -/
theorem handleCommands : Obligations.HandleCommands := by
  unfold Obligations.HandleCommands
  intro s p tag i e hf he hm
  refine ⟨fun h hs => ?_, fun h hs => ?_, fun rejoin h hs hv => ?_, fun rejoin h hs => ?_, fun h => ?_⟩
  · rw [exec_suspendArmed hf he hm h hs, State.suspendArmed_slot]
    rfl
  · obtain ⟨pulse, heq⟩ := State.suspendActive_eq he
    obtain ⟨hslot, hnotice, hrest⟩ := State.withdrawn_slot_notice he
      { gen := (s.slot i).gen + 1, entry := some { e.ended .suspended with interrupted := true } }
      (s.attention.entryNotices[i] ||| (e.defn.notify &&& EntryCause.ended.bit)) pulse
    have hexec := exec_suspendActive hf he hm h hs
    rw [heq] at hexec
    exact ⟨_, hexec.trans (by rw [State.cleared, hslot]), hslot, hnotice, hrest⟩
  · have hwait : s.resume i e rejoin = s.withSlot i
        { gen := (s.slot i).gen + 1, entry := some { e with state := .armed, admissionDue := true, rejoin := rejoin } } :=
      State.admitAfterCommand_waits (.inl hv)
    rw [exec_resume hf he hm h hs, hwait, State.slot_withSlot_self]
    rfl
  · refine ⟨s.withSlot i
        { gen := (s.slot i).gen + 1, entry := some { e with state := .armed, admissionDue := true, rejoin := rejoin } },
      _, _, rfl, rfl, State.admitAfterCommand_follows ?_, exec_resume hf he hm h hs⟩
    rw [State.slot_withSlot_self]
  · obtain ⟨pulse, heq⟩ := s.deleteSlot_eq i
    obtain ⟨hslot, hnotice, hrest⟩ := State.withdrawn_slot_notice he { gen := (s.slot i).gen + 1, entry := none } 0 pulse
    have hexec := exec_delete hf he hm h
    rw [heq] at hexec
    exact ⟨_, hexec.trans (by rw [State.cleared, hslot]), hslot, hnotice, hrest⟩

/-- An entry that waits to rejoin and whose stamped window holds the minute. -/
theorem Entry.rejoinWindow_some {stop : DayMinute} {stamp m : Minute} (hk : e.defn.kind = .span stop)
    (hs : e.stamp = some stamp) (ha : e.admissionDue = true) (hr : e.rejoin = true) (hi : e.interrupted = true)
    (hw : inWindow stamp.date stamp.time stop m = true) :
    e.rejoinWindow m = some (windowClose stamp.date stamp.time stop) := by
  unfold Entry.rejoinWindow
  rw [hk, hs, ha, hr, hi]
  dsimp only
  rw [hw]
  rfl

theorem windowClose_eq (d : Date) (start stop : DayMinute) :
    windowClose d start stop = { date := if stop.ofDay < start.ofDay then d.next else d, time := stop } := by
  unfold windowClose crossesMidnight
  simp only [decide_eq_true_eq]
  split <;> rfl

/-- What an evaluation that places a claim does, told from a state that differs in the slot alone. -/
theorem State.placesEntry_of_withSlot {t : State} {x : Slot} {gen : Byte} {raised : BitVec 5}
    (h : (s.withSlot i x).placesEntry t i gen e raised) : s.placesEntry t i gen e raised := by
  obtain ⟨h1, h2, h3, h4, h5, h6, h7, h8, h9⟩ := h
  refine ⟨h1, h2, h3, h4, fun j hj => ?_, h6, h7, h8, ?_⟩
  · obtain ⟨hlost, hkept⟩ := h5 j hj
    have hslot : (s.withSlot i x).slot j = s.slot j := State.slot_withSlot_ne _ _ hj
    refine ⟨fun hp => ?_, fun hp => ?_⟩
    · have h := hlost hp
      unfold State.entryDisplaced at h ⊢
      rw [hslot] at h
      exact h
    · rw [← hslot]
      exact hkept hp
  · unfold State.placementOnly at h9 ⊢
    rw [h9]
    rfl

/-- Settles O30: the entry is armed with its flag and rejoins in its admission. -/
theorem resumeRejoinsOccurrence : Obligations.ResumeRejoinsOccurrence := by
  unfold Obligations.ResumeRejoinsOccurrence
  intro s p tag i e stop m hf he hm h hs hk hst hint hv hw hwin
  have hexec := exec_resume (rejoin := true) hf he hm h hs
  obtain ⟨armed, harmed⟩ : ∃ armed : Entry, armed = { e with state := .armed, admissionDue := true, rejoin := true } :=
    ⟨_, rfl⟩
  have hslot : ((s.stepEntry i armed).slot i) = { gen := (s.slot i).gen + 1, entry := some armed } :=
    State.slot_withSlot_self _ _ _
  obtain ⟨hadmits, hengine⟩ :=
    (State.admitAfterCommand_follows (s := s.stepEntry i armed) (i := i) (congrArg Slot.entry hslot)).2 hv (.inl hw)
  have hwindow : armed.rejoinWindow s.clock.now = some (windowClose m.date m.time stop) := by
    rw [harmed]
    exact Entry.rejoinWindow_some hk hst rfl rfl hint hwin
  have hrejoins := hadmits.rejoins hwindow
  unfold State.rejoins at hrejoins
  rw [hslot, gen_add_two, windowClose_eq, harmed] at hrejoins
  have hresume : s.resume i e true = (s.stepEntry i armed).admitAfterCommand i := by rw [harmed]; rfl
  rw [hresume, harmed] at hexec
  rw [harmed] at hengine
  exact ⟨_, hexec.trans (by rw [hrejoins.1]), State.placesEntry_of_withSlot hrejoins, hengine⟩

end Sys2Proof.Machine
end

section
/-! PROOFS. MODIFY_ENTRY, by what its descriptor changes (O28; section 4.3). -/

namespace Sys2Proof.Machine

variable {s : State} {p : Port} {tag : Byte} {i : SlotNo} {e : Entry} {defn : Definition}

/-! ### The command -/

theorem readModify_slot {payload : List Byte} {gen : Byte} (h : readModify payload = some (i, gen, defn)) :
    slotAt payload = i := by
  unfold readModify at h
  split at h
  · obtain ⟨d, -, h⟩ := Option.map_eq_some_iff.1 h
    cases h
    rfl
  · cases h

theorem exec_modify {payload : List Byte} (h : s.asks p .modifyEntry tag payload) (hf : s.tableFree = true)
    (hr : readModify payload = some (i, (s.slot i).gen, defn)) (he : (s.slot i).entry = some e)
    (hm : s.mayChange p i = true) :
    exec (.modifyEntry p) s =
      .next
        (State.answered (s.modify i e defn) p tag
          (Reply.ok [((s.modify i e defn).slot i).gen, ((s.modify i e defn).slot i).stateCode])) := by
  refine h.served (fun _ => hf) rfl ?_ ((modify_eval s i e defn).port p)
  unfold modifyEntryBody
  rw [hr, State.withHandle_good (readModify_slot hr) hm he]

theorem State.modify_same (h : defn = e.defn) : s.modify i e defn = s := if_pos h

theorem State.modify_inPlace (hne : defn ≠ e.defn) (ht : defn.sameTiming e.defn = true) :
    s.modify i e defn = s.modifyInPlace i e defn := by
  unfold State.modify
  rw [if_neg hne, if_pos ht]

theorem State.modify_timing (hne : defn ≠ e.defn) (ht : defn.sameTiming e.defn = false) :
    s.modify i e defn = s.modifyTiming i e defn := by
  unfold State.modify
  rw [if_neg hne, if_neg (by rw [ht]; exact nofun)]

/-! ### In-place fields (R78, R80) -/

/-- The slot with the new definition. -/
def State.redefined (s : State) (i : SlotNo) (e : Entry) (defn : Definition) : State :=
  { s with table := s.table.set i { gen := (s.slot i).gen + 1, entry := some { e with defn := defn } } }

theorem State.redefined_slot (s : State) (i : SlotNo) (e : Entry) (defn : Definition) :
    (s.redefined i e defn).slot i = { gen := (s.slot i).gen + 1, entry := some { e with defn := defn } } :=
  State.slot_withSlot_self _ _ _

/-- An entry that modification leaves with autofree is freed when it is SPENT and its SPENT cause does not wait (R80). -/
theorem State.freeAfterModify_eq (he : (s.slot i).entry = some e) :
    s.freeAfterModify i =
      if e.state = .spent ∧ e.defn.autofree = true ∧ s.attention.entryNotices[i] &&& EntryCause.spent.bit = 0 then
        s.freeSlot i
      else s := by
  unfold State.freeAfterModify
  rw [he]

/-- An entry that holds no claim changes in its slot alone. -/
theorem State.modifyInPlace_unheld (hh : e.held = false) :
    s.modifyInPlace i e defn = (s.redefined i e defn).freeAfterModify i := by
  have hupdate : ∀ u : State, u.updateEntryClaim i e defn = u := fun u => if_neg (by simp [hh])
  unfold State.modifyInPlace
  rw [hupdate]
  rfl

/-- The claim of an ACTIVE held entry takes the new priority and action. -/
theorem State.modifyInPlace_held (ha : e.state = .active) (hh : e.held = true) :
    s.modifyInPlace i e defn =
      (s.redefined i e defn).setList defn.channel
        (updateInList (s.list defn.channel) (.entry i) defn.priority defn.action) := by
  have hupdate : (s.stepEntry i { e with defn := defn }).updateEntryClaim i e defn =
      (s.redefined i e defn).setList defn.channel
        (updateInList (s.list defn.channel) (.entry i) defn.priority defn.action) := if_pos ⟨ha, hh⟩
  have hslot : (((s.redefined i e defn).setList defn.channel
      (updateInList (s.list defn.channel) (.entry i) defn.priority defn.action)).slot i).entry =
        some { e with defn := defn } := by
    rw [State.setList_slot, State.redefined_slot]
  unfold State.modifyInPlace
  rw [hupdate, State.freeAfterModify_eq hslot, if_neg]
  rw [ha]
  exact nofun

theorem sameTiming_channel {a b : Definition} (h : a.sameTiming b = true) : a.channel = b.channel := by
  obtain ⟨-, hc, -⟩ := of_decide_eq_true h
  exact hc

theorem mem_updateInList {l : List Claim} {src : Source} {k : Claim} (hk : claimOf l src = some k) (priority : Nat)
    (action : Action) (x : Claim) :
    x ∈ updateInList l src priority action ↔
      x = { k with priority := priority, action := action } ∨ x ∈ l ∧ x.source ≠ src := by
  unfold updateInList
  rw [hk, mem_insertClaim, mem_dropSource]

/-! ### A timing change (R79) -/

/-- The entry that a timing change leaves. -/
def Entry.rearmed (e : Entry) (defn : Definition) : Entry :=
  { defn := defn, owner := e.owner, state := if e.state = .suspended then .suspended else .armed, remBudget := defn.budget,
    held := false, stamp := none, interrupted := false, final := false, endDue := none, remSeconds := 0,
    admissionDue := true, rejoin := false }

theorem Entry.retimed_eq (e : Entry) (defn : Definition) : e.retimed defn = e.rearmed defn := by
  unfold Entry.retimed Entry.rearmed Entry.leaveActive
  cases e.state <;> rfl

/-- The slot, its notices and its claim after a timing change, before the admission. -/
def State.retimedSlot (s : State) (i : SlotNo) (e : Entry) (defn : Definition) : State :=
  if e.state = .active then ((s.withdrawEntryClaim i).stepEntry i (e.rearmed defn)).raiseEntry i .ended
  else (s.withdrawEntryClaim i).stepEntry i (e.rearmed defn)

theorem State.modifyTiming_eq (s : State) (i : SlotNo) (e : Entry) (defn : Definition) :
    s.modifyTiming i e defn =
      if e.state = .suspended then s.retimedSlot i e defn else (s.retimedSlot i e defn).admitAfterCommand i := by
  unfold State.modifyTiming State.retimedSlot
  rw [Entry.retimed_eq]

theorem State.retimedSlot_eq (s : State) (i : SlotNo) (e : Entry) (defn : Definition) :
    ∃ pulse, s.retimedSlot i e defn =
      s.cleared i { gen := (s.slot i).gen + 1, entry := some (e.rearmed defn) }
        (if e.state = .active then s.attention.entryNotices[i] ||| (defn.notify &&& EntryCause.ended.bit)
        else s.attention.entryNotices[i]) pulse := by
  have hgen := congrArg Slot.gen (s.withdrawEntryClaim_slot i i)
  have hattention := s.withdrawEntryClaim_attention i
  have hsame : s.attention.entryNotices.set i s.attention.entryNotices[i] = s.attention.entryNotices :=
    Vector.set_getElem_self _
  have hslot : (((s.withdrawEntryClaim i).stepEntry i (e.rearmed defn)).slot i).entry = some (e.rearmed defn) := by
    rw [State.stepEntry, State.slot_withSlot_self]
  obtain ⟨pulse, hraise⟩ := State.raiseEntry_eq hslot .ended
  unfold State.retimedSlot State.cleared
  by_cases ha : e.state = .active
  · refine ⟨pulse, ?_⟩
    rw [if_pos ha, if_pos ha, hraise]
    generalize s.withdrawEntryClaim i = w at hgen hattention
    rw [← hgen, ← hattention]
    rfl
  · refine ⟨s.attention.pulse, ?_⟩
    rw [if_neg ha, if_neg ha, hsame]
    generalize s.withdrawEntryClaim i = w at hgen hattention
    rw [← hgen, ← hattention]
    rfl

theorem State.withdrawEntryClaim_unheld (he : (s.slot i).entry = some e) (hh : e.held = false) :
    s.withdrawEntryClaim i = s := by
  unfold State.withdrawEntryClaim
  rw [he]
  exact if_neg (by rw [hh]; exact nofun)

/-! ### The clauses -/

section Clauses

variable {payload : List Byte}

/-- An entry without a claim, which the modification does not free. -/
theorem exec_modify_unheld (h : s.asks p .modifyEntry tag payload) (hf : s.tableFree = true)
    (hr : readModify payload = some (i, (s.slot i).gen, defn)) (he : (s.slot i).entry = some e)
    (hm : s.mayChange p i = true) (hne : defn ≠ e.defn) (ht : defn.sameTiming e.defn = true) (hh : e.held = false)
    (hkeep : ¬(e.state = .spent ∧ defn.autofree = true ∧ s.attention.entryNotices[i] &&& EntryCause.spent.bit = 0)) :
    exec (.modifyEntry p) s =
      .next (State.answered (s.redefined i e defn) p tag (Reply.ok [(s.slot i).gen + 1, e.state.code])) := by
  have hslot := s.redefined_slot i e defn
  have hu : s.modify i e defn = s.redefined i e defn := by
    rw [State.modify_inPlace hne ht, State.modifyInPlace_unheld hh,
      State.freeAfterModify_eq (s := s.redefined i e defn) (congrArg Slot.entry hslot)]
    exact if_neg hkeep
  rw [exec_modify h hf hr he hm, hu, hslot]
  rfl

/-- An ACTIVE entry with its claim. -/
theorem exec_modify_held {k : Claim} (h : s.asks p .modifyEntry tag payload) (hf : s.tableFree = true)
    (hr : readModify payload = some (i, (s.slot i).gen, defn)) (he : (s.slot i).entry = some e)
    (hm : s.mayChange p i = true) (hne : defn ≠ e.defn) (ht : defn.sameTiming e.defn = true) (ha : e.state = .active)
    (hh : e.held = true) (hk : claimOf (s.list e.defn.channel) (.entry i) = some k) :
    ∃ u : State,
      exec (.modifyEntry p) s = .next (u.answered p tag (Reply.ok [(s.slot i).gen + 1, EntryState.active.code])) ∧
        u.slot i = { gen := (s.slot i).gen + 1, entry := some { e with defn := defn } } ∧
        (∀ x : Claim, x ∈ u.list e.defn.channel ↔
          x = { k with priority := defn.priority, action := defn.action } ∨
            x ∈ s.list e.defn.channel ∧ x.source ≠ .entry i) ∧
        s.followsList u e.defn.channel ∧ s.onlySlot u i ∧ u.attention = s.attention ∧
        s.onlyChannel u e.defn.channel ∧ s.evaluationOnly u ∧ u.engine = s.engine := by
  have hu := State.modify_inPlace (s := s) (i := i) hne ht
  rw [State.modifyInPlace_held ha hh, sameTiming_channel ht] at hu
  have hexec := exec_modify h hf hr he hm
  rw [hu] at hexec
  obtain ⟨l, hl⟩ : ∃ l, l = updateInList (s.list e.defn.channel) (.entry i) defn.priority defn.action := ⟨_, rfl⟩
  rw [← hl] at hexec
  have hslot : ((s.redefined i e defn).setList e.defn.channel l).slot i =
      { gen := (s.slot i).gen + 1, entry := some { e with defn := defn } } := by
    rw [State.setList_slot, State.redefined_slot]
  have hkept := State.setList_kept (s.redefined i e defn) e.defn.channel l
  have hfollows := State.setList_follows (s.redefined i e defn) e.defn.channel l
  have honly := State.setList_onlyChannel (s.redefined i e defn) e.defn.channel l
  have hlist := State.setList_list_self (s.redefined i e defn) e.defn.channel l
  have hothers : ∀ j, j ≠ i → ((s.redefined i e defn).setList e.defn.channel l).slot j = s.slot j := fun j hj => by
    rw [State.setList_slot]
    exact State.slot_withSlot_ne s _ hj
  have hcode : Slot.stateCode { gen := (s.slot i).gen + 1, entry := some { e with defn := defn } } =
      EntryState.active.code := congrArg EntryState.code ha
  generalize (s.redefined i e defn).setList e.defn.channel l = u at hexec hslot hkept hfollows honly hlist hothers
  refine ⟨u, hexec.trans (by rw [hslot, hcode]), hslot, fun x => ?_, hfollows, fun j hj => ⟨hothers j hj, by rw [hkept]; rfl⟩,
    by rw [hkept]; rfl, honly, ?_, by rw [hkept]; rfl⟩
  · rw [hlist, hl]
    exact mem_updateInList hk _ _ x
  · unfold State.evaluationOnly
    rw [hkept]
    rfl

/-- A SPENT autofree entry whose SPENT cause does not wait is freed in a second step. -/
theorem exec_modify_freed (h : s.asks p .modifyEntry tag payload) (hf : s.tableFree = true)
    (hr : readModify payload = some (i, (s.slot i).gen, defn)) (he : (s.slot i).entry = some e)
    (hm : s.mayChange p i = true) (hne : defn ≠ e.defn) (ht : defn.sameTiming e.defn = true) (hs : e.state = .spent)
    (hh : e.held = false) (hfree : defn.autofree = true)
    (hn : s.attention.entryNotices[i] &&& EntryCause.spent.bit = 0) :
    ∃ u : State, exec (.modifyEntry p) s = .next (u.answered p tag (Reply.ok [(s.slot i).gen + 2, 0])) ∧
      u = { s with
        table := s.table.set i { gen := (s.slot i).gen + 2, entry := none }
        attention :=
          { s.attention with entryNotices := s.attention.entryNotices.set i 0, pulse := u.attention.pulse } } := by
  have hslot := s.redefined_slot i e defn
  have hu : s.modify i e defn = (s.redefined i e defn).freeSlot i := by
    rw [State.modify_inPlace hne ht, State.modifyInPlace_unheld hh,
      State.freeAfterModify_eq (s := s.redefined i e defn) (congrArg Slot.entry hslot)]
    exact if_pos ⟨hs, hfree, hn⟩
  have hfreed : ((s.redefined i e defn).freeSlot i).slot i = { gen := (s.slot i).gen + 2, entry := none } := by
    have hself : ((s.redefined i e defn).freeSlot i).slot i =
        { gen := ((s.redefined i e defn).slot i).gen + 1, entry := none } := State.slot_withSlot_self _ _ _
    rw [hself, hslot, gen_add_two]
  refine ⟨(s.redefined i e defn).freeSlot i, ?_, ?_⟩
  · rw [exec_modify h hf hr he hm, hu, hfreed]
    rfl
  · have htable : ((s.redefined i e defn).freeSlot i).table = s.table.set i { gen := (s.slot i).gen + 2, entry := none } := by
      have hset : ((s.redefined i e defn).freeSlot i).table =
          (s.redefined i e defn).table.set i { gen := ((s.redefined i e defn).slot i).gen + 1, entry := none } := rfl
      rw [hset, hslot, gen_add_two]
      exact Vector.set_set _ _
    rw [← htable]
    rfl

/-- A timing change. -/
theorem exec_modify_timing (h : s.asks p .modifyEntry tag payload) (hf : s.tableFree = true)
    (hr : readModify payload = some (i, (s.slot i).gen, defn)) (he : (s.slot i).entry = some e)
    (hm : s.mayChange p i = true) (hne : defn ≠ e.defn) (ht : defn.sameTiming e.defn = false) :
    ∃ v u : State,
      v.slot i = { gen := (s.slot i).gen + 1, entry := some (e.rearmed defn) } ∧
        v.attention.entryNotices[i] =
          (if e.state = .active then s.attention.entryNotices[i] ||| (defn.notify &&& EntryCause.ended.bit)
          else s.attention.entryNotices[i]) ∧
        s.withdraws v i e ∧ s.onlySlot v i ∧ s.onlyChannel v e.defn.channel ∧ s.evaluationOnly v ∧ v.engine = s.engine ∧
        (e.state = .suspended → u = v) ∧ (e.state ≠ .suspended → v.admissionFollows u i (e.rearmed defn)) ∧
        exec (.modifyEntry p) s = .next (u.answered p tag (Reply.ok [(u.slot i).gen, (u.slot i).stateCode])) := by
  have hu := State.modify_timing (s := s) (i := i) hne ht
  rw [State.modifyTiming_eq] at hu
  have hexec := exec_modify h hf hr he hm
  rw [hu] at hexec
  obtain ⟨pulse, hv⟩ := s.retimedSlot_eq i e defn
  obtain ⟨hslot, hnotice, hwithdraws, honlySlot, honly, heval, hengine⟩ := State.withdrawn_slot_notice he
    { gen := (s.slot i).gen + 1, entry := some (e.rearmed defn) }
    (if e.state = .active then s.attention.entryNotices[i] ||| (defn.notify &&& EntryCause.ended.bit)
      else s.attention.entryNotices[i]) pulse
  rw [← State.cleared, ← hv] at hslot hnotice hwithdraws honlySlot honly heval hengine
  exact ⟨s.retimedSlot i e defn, _, hslot, hnotice, hwithdraws, honlySlot, honly, heval, hengine, fun hs => if_pos hs,
    fun hs => by rw [if_neg hs]; exact State.admitAfterCommand_follows (congrArg Slot.entry hslot), hexec⟩

/-- A timing change of an entry without a claim while the clock is INVALID. -/
theorem exec_modify_timing_invalid (h : s.asks p .modifyEntry tag payload) (hf : s.tableFree = true)
    (hr : readModify payload = some (i, (s.slot i).gen, defn)) (he : (s.slot i).entry = some e)
    (hm : s.mayChange p i = true) (hne : defn ≠ e.defn) (ht : defn.sameTiming e.defn = false) (ha : e.state ≠ .active)
    (hh : e.held = false) (hv : s.clock.valid = false) :
    exec (.modifyEntry p) s =
      .next
        (State.answered
          { s with table := s.table.set i { gen := (s.slot i).gen + 1, entry := some (e.rearmed defn) } } p tag
          (Reply.ok
            [(s.slot i).gen + 1, if e.state = .suspended then EntryState.suspended.code else EntryState.armed.code])) := by
  have hretimed : s.retimedSlot i e defn = s.stepEntry i (e.rearmed defn) := by
    unfold State.retimedSlot
    rw [if_neg ha, State.withdrawEntryClaim_unheld he hh]
  have hwait : (s.stepEntry i (e.rearmed defn)).admitAfterCommand i = s.stepEntry i (e.rearmed defn) :=
    State.admitAfterCommand_waits (.inl hv)
  have hu : s.modify i e defn = s.stepEntry i (e.rearmed defn) := by
    rw [State.modify_timing hne ht, State.modifyTiming_eq, hretimed, hwait, ite_self]
  have hcode : Slot.stateCode { gen := (s.slot i).gen + 1, entry := some (e.rearmed defn) } =
      if e.state = .suspended then EntryState.suspended.code else EntryState.armed.code :=
    apply_ite EntryState.code _ _ _
  rw [exec_modify h hf hr he hm, hu, State.stepEntry, State.slot_withSlot_self, hcode]
  rfl

end Clauses

/-- Settles O28, clause by clause. -/
theorem modifyEntryByDifference : Obligations.ModifyEntryByDifference := by
  unfold Obligations.ModifyEntryByDifference
  intro s p tag payload i e defn h hf hr he hm
  refine ⟨fun heq => ?_, fun hne ht hh hkeep => exec_modify_unheld h hf hr he hm hne ht hh ?_,
    fun k hne ht ha hh hk => exec_modify_held h hf hr he hm hne ht ha hh hk,
    fun hne ht ha hh hv => exec_modify_timing_invalid h hf hr he hm hne ht ha hh hv,
    fun hne ht hs hh hfree => ⟨fun hn => ?_, fun hn => exec_modify_freed h hf hr he hm hne ht hs hh hfree hn⟩,
    fun hne ht => ?_⟩
  · rw [exec_modify h hf hr he hm, State.modify_same heq]
    have hcode : (s.slot i).stateCode = e.state.code := by
      unfold Slot.stateCode
      rw [he]
    rw [hcode]
  · rintro ⟨hs, hfree, -⟩
    rcases hkeep with hkeep | hkeep
    · exact hkeep hs
    · exact absurd (hfree.symm.trans hkeep) nofun
  · have hexec := exec_modify_unheld h hf hr he hm hne ht hh fun hc => hn hc.2.2
    rw [hs] at hexec
    exact hexec
  · obtain ⟨v, u, hv⟩ := exec_modify_timing h hf hr he hm hne ht
    exact ⟨v, u, _, rfl, hv⟩

end Sys2Proof.Machine
end

section
/-! PROOFS. The rows of a WIPE_TABLE, and the table commands that waited (O31; sections 3.7, 4.1, 4.5 and 4.6). -/

namespace Sys2Proof.Machine

variable {s : State} {p : Port}

/-! ### Taking a command that waited (R62, R71) -/

/-- A table command that waits is taken as its own row takes it. -/
theorem exec_row_takeWaiting {c : Command} {tag : Byte} {payload : List Byte} (hc : c.isTable = true)
    (h : s.asks p c tag payload) : exec (c.row p) s = .next (s.takeWaiting p) := by
  have hreq := State.request_of_slot h.2
  unfold State.takeWaiting
  rw [hreq]
  dsimp only
  rw [commandOf_code]
  cases c with
  | addEntry => rfl
  | readEntry => rfl
  | modifyEntry => rfl
  | suspendEntry => rfl
  | resumeEntry => rfl
  | deleteEntry => rfl
  | findEntries => rfl
  | wipeTable => rfl
  | _ => cases hc

/-- A part that does not run takes nothing. -/
theorem State.takeWaiting_of_not_running (hr : s.running = false) : s.takeWaiting p = s := by
  have hserve : ∀ c body, s.serveTable c p body = s := fun c body => by
    unfold State.serveTable State.serve
    rw [hr]
    simp
  have hwipe : s.takeWipe p = s := if_neg (by rw [hr]; simp)
  unfold State.takeWaiting
  split
  · rfl
  · split
    · exact hserve _ _
    · exact hserve _ _
    · exact hserve _ _
    · exact hserve _ _
    · exact hserve _ _
    · exact hserve _ _
    · exact hserve _ _
    · exact hwipe
    · rfl

/-- Where no table command waits nothing is taken. -/
theorem State.takeWaiting_of_none
    (h : ∀ (c : Command) (tag : Byte) (payload : List Byte), c.isTable = true → ¬s.asks p c tag payload) :
    s.takeWaiting p = s := by
  cases hr : s.running with
  | false => exact State.takeWaiting_of_not_running hr
  | true =>
    have hcode : ∀ (r : Request) (c : Command), s.request p = some r → commandOf r.code = some c → c.isTable = false :=
      fun r c hreq hc => by
        refine Bool.eq_false_iff.2 fun ht => h c r.tag r.payload ht ⟨hr, ?_⟩
        rw [State.request_eq_some hreq, commandOf_iff.1 hc]
    unfold State.takeWaiting
    cases hreq : s.request p with
    | none => rfl
    | some r =>
      dsimp only
      cases hc : commandOf r.code with
      | none => rfl
      | some c =>
        have ht := hcode r c hreq hc
        cases c with
        | addEntry => cases ht
        | readEntry => cases ht
        | modifyEntry => cases ht
        | suspendEntry => cases ht
        | resumeEntry => cases ht
        | deleteEntry => cases ht
        | findEntries => cases ht
        | wipeTable => cases ht
        | _ => rfl

theorem State.takeWaiting_taking (s : State) (p : Port) : s.taking p (s.takeWaiting p) :=
  ⟨fun _ _ _ hc h => exec_row_takeWaiting hc h, State.takeWaiting_of_none⟩

theorem State.takeAllWaiting_append (s : State) (takes : List Port) (p : Port) :
    s.takeAllWaiting (takes ++ [p]) = (s.takeAllWaiting takes).takeWaiting p := by
  unfold State.takeAllWaiting
  rw [List.foldl_append]
  rfl

/-! ### The rows -/

theorem exec_wipeSlot : exec .wipeSlot s = .next s.wipeStep := rfl

theorem cursorSlot_val (i : SlotNo) : cursorSlot i.val = some i := dif_pos i.isLt

/-- The slot step at the cursor (R88). -/
theorem State.wipeStep_eq {w : Wipe} {i : SlotNo} (hr : s.running = true) (hw : s.engine.wipe = some w)
    (hc : w.cursor = i.val) :
    s.wipeStep =
      (s.wipeSlotStep i).withEngine
        { (s.wipeSlotStep i).engine with wipe := some { w with cursor := w.cursor + 1 } } := by
  unfold State.wipeStep
  rw [if_pos hr, hw]
  dsimp only
  rw [hc, cursorSlot_val]

/-- The completion, once the cursor has passed every slot. -/
theorem State.completeWipe_eq {w : Wipe} (hr : s.running = true) (hw : s.engine.wipe = some w) (hc : 256 ≤ w.cursor)
    (takes : List Port) :
    s.completeWipe takes =
      ((((s.withEngine { s.engine with wipe := none }).respond w.port (Reply.ok [])).afterWipe).takeAllWaiting takes) := by
  unfold State.completeWipe
  rw [if_pos hr, hw]
  exact if_neg (Nat.not_lt.2 hc)

theorem State.withEngine_of_eq {e : Engine} (h : e = s.engine) : s = s.withEngine e := by
  rw [h]
  rfl

/-- The engine once a wipe has left it, at the time `t` (R65). -/
def Engine.afterWipe (e : Engine) (t : Moment) (m : Minute) : Engine :=
  { e with
    resyncRequested := false
    work :=
      if e.resyncRequested then .resync t (skippedInterval e.lastEvaluated t) 0
      else if e.boundaryNoted ∧ e.work.inFlight = false then .sweep m 0
      else e.work
    boundaryNoted := e.boundaryNoted && (e.resyncRequested || e.work.inFlight) }

theorem State.afterWipe_eq (s : State) :
    s.afterWipe = s.withEngine (s.engine.afterWipe s.clock.moment s.clock.now) := by
  unfold State.afterWipe Engine.afterWipe
  rcases he : s.engine with ⟨work, requested, noted, last, wipe⟩
  dsimp only
  cases requested with
  | true => simp only [if_pos, Bool.true_or, Bool.and_true, State.startResync, he]
  | false =>
    cases noted with
    | false => exact State.withEngine_of_eq he.symm
    | true =>
      cases hf : work.inFlight with
      | true => exact State.withEngine_of_eq (e := ⟨work, false, true, last, wipe⟩) he.symm
      | false => simp [State.startSweep, he]

theorem State.answered_engine (s : State) (p : Port) (tag : Byte) (reply : Reply) :
    (s.answered p tag reply).engine = s.engine := by cases p <;> rfl

theorem State.answered_clock (s : State) (p : Port) (tag : Byte) (reply : Reply) :
    (s.answered p tag reply).clock = s.clock := by cases p <;> rfl

/-- A response and a change of the engine do not touch each other. -/
theorem State.answered_withEngine (s : State) (p : Port) (tag : Byte) (reply : Reply) (x : Engine) :
    (s.answered p tag reply).withEngine x = (s.withEngine x).answered p tag reply := by
  cases p <;> rfl

/-- Settles O31. -/
theorem wipeRows : Obligations.WipeRows := by
  unfold Obligations.WipeRows
  refine ⟨fun s p tag h ha hf => ?_, fun s w i hr hw hc => ⟨fun he => ?_, fun e he => ?_⟩,
    fun s w takes p hr hw hc => ?_, fun s w r hr hw hc hs => ?_⟩
  · obtain ⟨-, -, hok⟩ := takeWipe_judged h hf
    exact congrArg Host.Outcome.next (hok ha rfl)
  · have hskip : s.wipeSlotStep i = s := by
      unfold State.wipeSlotStep
      rw [he]
    rw [exec_wipeSlot, State.wipeStep_eq hr hw hc, hskip]
    rfl
  · have hdelete : s.wipeSlotStep i = s.deleteSlot i := by
      unfold State.wipeSlotStep
      rw [he]
    obtain ⟨pulse, heq⟩ := s.deleteSlot_eq i
    obtain ⟨hslot, hnotice, hwithdraws, honlySlot, honly, heval, hengine⟩ :=
      State.withdrawn_slot_notice he { gen := (s.slot i).gen + 1, entry := none } 0 pulse
    rw [← State.cleared] at hslot hnotice hwithdraws honlySlot honly heval hengine
    have hstep := State.wipeStep_eq hr hw hc
    rw [hdelete, heq, hengine] at hstep
    generalize s.cleared i { gen := (s.slot i).gen + 1, entry := none } 0 pulse = u at *
    refine ⟨_, exec_wipeSlot.trans (congrArg Host.Outcome.next hstep), hslot, hnotice, hwithdraws, honlySlot, honly, ?_, rfl⟩
    unfold State.evaluationOnly at heval ⊢
    rw [heval]
    rfl
  · refine ⟨s.completeWipe takes, s.completeWipe (takes ++ [p]), rfl, rfl, ?_⟩
    rw [State.completeWipe_eq hr hw hc, State.completeWipe_eq hr hw hc, State.takeAllWaiting_append]
    exact State.takeWaiting_taking _ p
  · have hreq : (s.withEngine { s.engine with wipe := none }).request w.port = some r := by
      rw [State.request_of_port (State.withEngine_port s _ w.port)]
      exact State.request_of_slot hs
    have hresp : (s.withEngine { s.engine with wipe := none }).respond w.port (Reply.ok []) =
        (s.withEngine { s.engine with wipe := none }).answered w.port r.tag (Reply.ok []) := State.respond_eq hreq _
    have hexec : exec (.wipeComplete []) s = .next (s.completeWipe []) := rfl
    rw [hexec, State.completeWipe_eq hr hw hc, hresp, State.afterWipe_eq, State.answered_withEngine, State.answered_engine,
      State.answered_clock]
    rfl

end Sys2Proof.Machine
end

section
/-! PROOFS. The completions of a sweep and of a resync, and the table commands that waited (O46; sections 3.3, 3.6 and 3.8). -/

namespace Sys2Proof.Machine

variable {s : State}

/-! ### The report of the batch -/

/-- A report leaves the record of the batch, so the record of the start picks the channels to the end. -/
theorem State.foldl_reports_of_record (l : List Chan) {s u : State} (h : u.arbiter.changed = s.arbiter.changed) :
    l.foldl (fun t c => if t.arbiter.changed[c] then t.reportTop c else t) u =
      l.foldl (fun t c => if s.arbiter.changed[c] then t.reportTop c else t) u := by
  induction l generalizing u with
  | nil => rfl
  | cons c l ih =>
    rw [List.foldl_cons, List.foldl_cons, h]
    refine ih ?_
    split
    · exact h
    · exact h

/-- The recorded channels report their tops, and the record is cleared (R47, R62, R68). -/
theorem State.flushBatch_eq (s : State) :
    ∃ (lastTop : Vector (Option Top) 24) (channels : Vector ChannelRun 24),
      s.flushBatch =
        { s with
          arbiter := { s.arbiter with lastTop := lastTop, changed := Vector.replicate 24 false }
          channels := channels } ∧
      ∀ c : Chan,
        (s.arbiter.changed[c] = true →
          lastTop[c] = topOf (s.list c) ∧
            channels[c] = (s.channel c).told (s.config c) (targetOf (s.config c) (topOf (s.list c)))) ∧
        (s.arbiter.changed[c] = false → lastTop[c] = s.lastTop c ∧ channels[c] = s.channel c) := by
  obtain ⟨heq, hc⟩ := State.foldl_reports (fun c => s.arbiter.changed[c]) allChannels_nodup s
  unfold State.flushBatch
  rw [State.foldl_reports_of_record allChannels rfl]
  dsimp only at heq hc ⊢
  generalize allChannels.foldl _ s = t at heq hc ⊢
  refine ⟨t.arbiter.lastTop, t.channels, by rw [heq]; rfl, fun c => ⟨fun h => ?_, fun h => (hc c).2 (.inr h)⟩⟩
  rw [← ChannelRun.takeTarget_eq_told]
  exact (hc c).1 (mem_allChannels c) h

/-! ### The completion -/

/-- The engine when its work has completed up to the minute `m` (R47, R62). -/
def Engine.completed (e : Engine) (m now : Minute) : Engine :=
  { e with
    work := if e.boundaryNoted then .sweep now 0 else .idle
    boundaryNoted := false
    lastEvaluated := some m }

theorem State.completeWork_eq (s : State) (m : Minute) :
    s.completeWork m =
      ((s.withEngine { s.engine with work := .idle, lastEvaluated := some m }).flushBatch).withEngine
        (s.engine.completed m s.clock.now) := by
  obtain ⟨lastTop, channels, heq, -⟩ :=
    State.flushBatch_eq (s.withEngine { s.engine with work := .idle, lastEvaluated := some m })
  unfold State.completeWork Engine.completed
  rw [heq]
  cases hb : s.engine.boundaryNoted with
  | true => exact if_pos hb
  | false =>
    refine (if_neg (by rw [State.withEngine_engine]; simp [hb])).trans (State.withEngine_of_eq ?_)
    rw [State.withEngine_engine]
    simp [hb]

/-- The completed state against the one before: the engine, the record of the batch and the channels it told. -/
def State.completes (s t : State) (m : Minute) : Prop :=
  t = { s with engine := t.engine, arbiter := t.arbiter, channels := t.channels } ∧
    t.engine = s.engine.completed m s.clock.now ∧
    ∀ c : Chan, t.list c = s.list c ∧ t.arbiter.changed[c] = false ∧
      (s.arbiter.changed[c] = true →
        t.lastTop c = topOf (s.list c) ∧
          t.channel c = (s.channel c).told (s.config c) (targetOf (s.config c) (topOf (s.list c)))) ∧
      (s.arbiter.changed[c] = false → t.lastTop c = s.lastTop c ∧ t.channel c = s.channel c)

theorem State.completeWork_completes (s : State) (m : Minute) : s.completes (s.completeWork m) m := by
  obtain ⟨lastTop, channels, heq, hc⟩ :=
    State.flushBatch_eq (s.withEngine { s.engine with work := .idle, lastEvaluated := some m })
  rw [State.completeWork_eq, heq]
  exact ⟨rfl, rfl, fun c => ⟨rfl, by simp [State.withEngine], (hc c).1, (hc c).2⟩⟩

/-! ### The rows -/

theorem exec_sweepComplete_eq {m : Minute} {cursor : Nat} (hr : s.running = true) (hw : s.engine.work = .sweep m cursor)
    (hn : s.engine.wipe = none) :
    exec .sweepComplete s = .next (if cursor < 256 then s else s.completeWork m) := by
  have hif : (s.running && s.engine.wipe.isNone) = true := by rw [hr, hn]; rfl
  have hends : exec .sweepComplete s = .next s.sweepEnds := rfl
  rw [hends]
  unfold State.sweepEnds
  rw [if_pos hif, hw]

theorem exec_resyncComplete_eq {T : Moment} {skipped : Skipped} {cursor : Nat} (takes : List Port) (hr : s.running = true)
    (hw : s.engine.work = .resync T skipped cursor) :
    exec (.resyncComplete takes) s =
      .next (if cursor < 256 then s else (s.completeWork T.minuteOf).takeAllWaiting takes) := by
  have hends : exec (.resyncComplete takes) s = .next (s.resyncEnds takes) := rfl
  rw [hends]
  unfold State.resyncEnds
  rw [if_pos hr, hw]

theorem State.takeAllWaiting_nil (s : State) : s.takeAllWaiting [] = s := rfl

/-- Settles O46: what completes is one function for a sweep and a resync. -/
theorem workCompletes : Obligations.WorkCompletes := by
  unfold Obligations.WorkCompletes
  refine ⟨fun s i m cursor hr hi => ?_, fun s T skipped cursor takes p hr hw hc => ?_⟩
  · have hexec : exec i s = .next (if cursor < 256 then s else s.completeWork m) := by
      rcases hi with ⟨rfl, hw, hn⟩ | ⟨rfl, T, skipped, hw, rfl⟩
      · exact exec_sweepComplete_eq hr hw hn
      · have hm : T.minuteOf = { date := T.date, time := T.time } := rfl
        rw [exec_resyncComplete_eq [] hr hw, State.takeAllWaiting_nil, hm]
    refine ⟨fun hc => by rw [hexec, if_pos hc], fun hc => ⟨s.completeWork m, ?_, s.completeWork_completes m⟩⟩
    rw [hexec, if_neg (Nat.not_lt.2 hc)]
  · refine ⟨(s.completeWork T.minuteOf).takeAllWaiting takes, (s.completeWork T.minuteOf).takeAllWaiting (takes ++ [p]),
      ?_, ?_, ?_⟩
    · rw [exec_resyncComplete_eq takes hr hw, if_neg (Nat.not_lt.2 hc)]
    · rw [exec_resyncComplete_eq _ hr hw, if_neg (Nat.not_lt.2 hc)]
    · rw [State.takeAllWaiting_append]
      exact State.takeWaiting_taking _ p

end Sys2Proof.Machine
end

section
/-! PROOFS. The second boundary (O42; sections 3.4, 5.4, 8.1, 8.2, 8.5 and 10.1). -/

namespace Sys2Proof.Machine

variable {s : State}

/-- The state after a second that EVENTs and TIMED claims have counted, with what the clock then hands on. -/
def State.counted (s : State) (clock : Clock) (dates : DateSet) (engine : Engine) (tick : Bool) (pulse : Bool) : State :=
  { s with
    timebase := { s.timebase with subSecond := 0 }
    table := s.table.map Slot.countSecond
    arbiter := { s.arbiter with lists := s.arbiter.lists.map fun l => l.map Claim.countSecond }
    clock := clock
    dates := dates
    engine := engine
    attention := { s.attention with tickCause := tick, pulse := pulse } }

section
variable (s) (clock : Clock) (dates : DateSet) (engine : Engine) (tick : Bool) (pulse : Bool)

theorem State.counted_slot (i : SlotNo) :
    (s.counted clock dates engine tick pulse).slot i = (s.slot i).countSecond :=
  s.countSeconds_slot i

theorem State.counted_list (c : Chan) :
    (s.counted clock dates engine tick pulse).list c = (s.list c).map Claim.countSecond :=
  s.countSeconds_list c

end

theorem Slot.countSecond_gen (x : Slot) : x.countSecond.gen = x.gen := by
  cases h : x.entry with
  | none => rw [Slot.countSecond_none h]
  | some e =>
    rw [Slot.countSecond_some h]
    split <;> rfl

theorem Entry.counts_iff {e : Entry} :
    e.counts = true ↔ e.state = .active ∧ e.defn.kind.isEvent = true ∧ e.interrupted = false := by
  unfold Entry.counts Entry.restartPending
  cases hi : e.interrupted with
  | false => simp
  | true => simp; tauto

theorem Slot.countSecond_entry {x : Slot} {e : Entry} (h : x.entry = some e) :
    x.countSecond.entry =
      if e.state = .active ∧ e.defn.kind.isEvent = true ∧ e.interrupted = false then
        some { e with remSeconds := e.remSeconds - 1 }
      else some e := by
  rw [Slot.countSecond_some h]
  by_cases hc : e.counts = true
  · rw [if_pos hc, if_pos (Entry.counts_iff.1 hc)]
  · rw [if_neg hc, if_neg (fun hn => hc (Entry.counts_iff.2 hn)), h]

/-! ### What the clock hands on -/

/-- The second counted, before the clock takes it. -/
theorem State.secondBoundary_eq (hr : s.running = true) (hd : s.secondDue = true) :
    s.secondBoundary =
      if s.clock.valid then
        (s.counted s.clock s.dates s.engine s.attention.tickCause s.attention.pulse).clockSecond
      else s.counted s.clock s.dates s.engine s.attention.tickCause s.attention.pulse := by
  unfold State.secondBoundary
  rw [if_pos hd]
  dsimp only
  rw [if_pos (show (s.withTimebase { s.timebase with subSecond := 0 }).running = true from hr)]
  rfl

theorem State.clockSecond_within (hr : s.running = true) (h : s.clock.second < 59) :
    s.clockSecond = (s.withClock { s.clock with second := s.clock.second + 1 }).tickAt false := by
  unfold State.clockSecond
  rw [hr, show s.clock.advanceSecond = { s.clock with second := s.clock.second + 1 } from if_pos h]
  exact if_pos h

theorem State.clockSecond_carry (hr : s.running = true) (h : 59 ≤ s.clock.second) :
    s.clockSecond = (s.withClock s.clock.advanceMinute).minuteBoundary s.clock.atLastMinute := by
  unfold State.clockSecond
  rw [hr, show s.clock.advanceSecond = s.clock.advanceMinute from if_neg (Nat.not_lt.2 h)]
  exact if_neg (Nat.not_lt.2 h)

theorem State.tickCallsFor_false (s : State) : s.tickCallsFor false = decide (s.attention.tickPeriod = .second) := by
  unfold State.tickCallsFor
  cases s.attention.tickPeriod <;> simp

theorem State.secondBoundary_of_invalid (hr : s.running = true) (hd : s.secondDue = true) (hv : s.clock.valid = false) :
    s.secondBoundary = s.counted s.clock s.dates s.engine s.attention.tickCause s.attention.pulse := by
  rw [State.secondBoundary_eq hr hd, hv]
  exact if_neg Bool.false_ne_true

theorem State.secondBoundary_within (hr : s.running = true) (hd : s.secondDue = true) (hv : s.clock.valid = true)
    (h : s.clock.second < 59) :
    ∃ pulse, s.secondBoundary =
      s.counted { s.clock with second := s.clock.second + 1 } s.dates s.engine
        (s.attention.tickCause || decide (s.attention.tickPeriod = .second)) pulse := by
  let u := s.counted s.clock s.dates s.engine s.attention.tickCause s.attention.pulse
  obtain ⟨pulse, htick⟩ := State.tickAt_eq (u.withClock { u.clock with second := u.clock.second + 1 }) false
  have hclock := State.clockSecond_within (s := u) hr h
  rw [htick, State.tickCallsFor_false] at hclock
  refine ⟨pulse, ?_⟩
  rw [State.secondBoundary_eq hr hd, if_pos hv]
  exact hclock

theorem State.secondBoundary_carry (hr : s.running = true) (hd : s.secondDue = true) (hv : s.clock.valid = true)
    (h : 59 ≤ s.clock.second) :
    ∃ pulse, s.secondBoundary =
      s.counted s.clock.advanceMinute (s.dates.boundaryAt s.clock.atLastMinute s.clock.advanceMinute.date)
        (s.engine.boundaryAt s.clock.advanceMinute.now)
        (s.attention.tickCause || (s.withClock s.clock.advanceMinute).tickCallsFor true) pulse := by
  let u := s.counted s.clock s.dates s.engine s.attention.tickCause s.attention.pulse
  obtain ⟨pulse, hboundary⟩ := State.minuteBoundary_eq (u.withClock u.clock.advanceMinute) u.clock.atLastMinute
  have hclock := State.clockSecond_carry (s := u) hr h
  rw [hboundary] at hclock
  refine ⟨pulse, ?_⟩
  rw [State.secondBoundary_eq hr hd, if_pos hv]
  exact hclock

/-- The second counted, by the validity of the clock and its seconds. -/
theorem State.secondBoundary_counted (hr : s.running = true) (hd : s.secondDue = true) :
    ∃ clock dates engine tick pulse,
      s.secondBoundary = s.counted clock dates engine tick pulse ∧
      (s.clock.valid = false →
        clock = s.clock ∧ dates = s.dates ∧ engine = s.engine ∧ tick = s.attention.tickCause ∧ pulse = s.attention.pulse) ∧
      (s.clock.valid = true → s.clock.second < 59 →
        clock = { s.clock with second := s.clock.second + 1 } ∧ dates = s.dates ∧ engine = s.engine ∧
          tick = (s.attention.tickCause || decide (s.attention.tickPeriod = .second))) ∧
      (s.clock.valid = true → 59 ≤ s.clock.second →
        clock = s.clock.advanceMinute ∧ dates = s.dates.boundaryAt s.clock.atLastMinute s.clock.advanceMinute.date ∧
          engine = s.engine.boundaryAt s.clock.advanceMinute.now ∧
          tick = (s.attention.tickCause || (s.withClock s.clock.advanceMinute).tickCallsFor true)) := by
  cases hv : s.clock.valid with
  | false =>
    exact ⟨_, _, _, _, _, State.secondBoundary_of_invalid hr hd hv, fun _ => ⟨rfl, rfl, rfl, rfl, rfl⟩, nofun, nofun⟩
  | true =>
    rcases Nat.lt_or_ge s.clock.second 59 with hsec | hsec
    · obtain ⟨pulse, heq⟩ := State.secondBoundary_within hr hd hv hsec
      exact ⟨_, _, _, _, pulse, heq, nofun, fun _ _ => ⟨rfl, rfl, rfl, rfl⟩, fun _ h => absurd hsec (Nat.not_lt.2 h)⟩
    · obtain ⟨pulse, heq⟩ := State.secondBoundary_carry hr hd hv hsec
      exact ⟨_, _, _, _, pulse, heq, nofun, fun _ h => absurd h (Nat.not_lt.2 hsec), fun _ _ => ⟨rfl, rfl, rfl, rfl⟩⟩

/-! ### The row -/

theorem exec_secondBoundary_eq : exec .secondBoundary s = .next s.secondBoundary := rfl

/-- Outside a part that runs the clock alone takes the second (R179, R181). -/
theorem State.secondBoundary_of_not_running (hr : s.running = false) (hd : s.secondDue = true) :
    s.secondBoundary =
      { s with
        timebase := { s.timebase with subSecond := 0 }
        clock := if s.clock.valid then s.clock.advanceSecond else s.clock } := by
  have hclock : ∀ u : State, u.running = false → u.clockSecond = u.withClock u.clock.advanceSecond := fun u hu => by
    unfold State.clockSecond
    rw [hu]
    rfl
  let u := s.withTimebase { s.timebase with subSecond := 0 }
  have hu : ¬u.running = true := by
    rw [show u.running = false from hr]
    exact Bool.false_ne_true
  unfold State.secondBoundary
  rw [if_pos hd]
  dsimp only
  rw [if_neg hu, hclock u hr]
  cases hv : s.clock.valid with
  | true => exact if_pos hv
  | false => exact if_neg (show ¬s.clock.valid = true by rw [hv]; exact Bool.false_ne_true)

/-- Settles O42: the seconds are counted in every running part, and the clock's part is split by its validity and its seconds. -/
theorem secondBoundaryCounts : Obligations.SecondBoundaryCounts := by
  unfold Obligations.SecondBoundaryCounts
  refine ⟨fun s hr ht hsub => ?_, fun s hs ht hsub => ?_, fun s h => ?_⟩
  · have hcold : s.supply ≠ .cold := fun hc => by simp [State.running, hc] at hr
    have hd : s.secondDue = true := (secondDue_iff s).2 ⟨hcold, ht, hsub⟩
    obtain ⟨clock, dates, engine, tick, pulse, heq, hinvalid, hwithin, hcarry⟩ := State.secondBoundary_counted hr hd
    refine ⟨_, exec_secondBoundary_eq.trans (congrArg Host.Outcome.next heq), rfl, fun i => ?_, fun i e he => ?_, fun c => ?_,
      fun hv => ?_, fun hv hsec => ?_, fun hv hsec => ?_⟩
    · rw [State.counted_slot]
      exact ⟨Slot.countSecond_gen _, fun hn => by rw [Slot.countSecond_none hn, hn]⟩
    · rw [State.counted_slot]
      exact Slot.countSecond_entry he
    · rw [State.counted_list]
      refine List.map_congr_left fun k _ => ?_
      unfold Claim.countSecond
      cases k.lifetime <;> rfl
    · obtain ⟨rfl, rfl, rfl, rfl, rfl⟩ := hinvalid hv
      exact ⟨rfl, rfl, rfl, rfl⟩
    · exact hwithin hv hsec
    · obtain ⟨rfl, rfl, rfl, rfl⟩ := hcarry hv hsec
      refine ⟨rfl, fun hlast => ?_, fun hm hh => ?_, rfl, ?_⟩
      · exact congrArg (fun b => s.dates.boundaryAt b s.clock.advanceMinute.date) (Clock.atLastMinute_false hlast)
      · have hx : s.dates.boundaryAt s.clock.atLastMinute s.clock.advanceMinute.date =
            s.dates.boundaryAt true s.clock.advanceMinute.date :=
          congrArg (fun b => s.dates.boundaryAt b s.clock.advanceMinute.date) (Clock.atLastMinute_true hm hh)
        exact ⟨congrArg DateSet.records hx, (congrArg DateSet.today hx).trans
          (congrArg (fun x : DateSet => dayClassOf x.records s.clock.advanceMinute.date) hx.symm)⟩
      · exact congrArg (s.attention.tickCause || ·) (State.tickCallsFor_true _)
  · refine exec_secondBoundary_eq.trans (congrArg Host.Outcome.next (State.secondBoundary_of_not_running ?_ ?_))
    · rcases hs with hs | ⟨hs, hi⟩
      · simp [State.running, hs]
      · simp [State.running, hi]
    · refine (secondDue_iff s).2 ⟨?_, ht, hsub⟩
      rcases hs with hs | ⟨hs, -⟩
      · rw [hs]; decide
      · rw [hs]; decide
  · refine exec_secondBoundary_eq.trans (congrArg Host.Outcome.next (secondBoundary_of_not_due ?_))
    refine Bool.eq_false_iff.2 fun hd => ?_
    obtain ⟨-, ht, hsub⟩ := (secondDue_iff s).1 hd
    rcases h with h | h
    · exact h ht
    · omega

end Sys2Proof.Machine
end

section
/-! PROOFS. The timers of a channel, its pin, and the proof monitor (O47, O48; sections 6.3 to 6.5). -/

namespace Sys2Proof.Machine

variable {s : State} {c : Chan} {cfg : ChannelConfig} {run : ChannelRun}

/-! ### The pin (R122) -/

theorem State.chPin_of_active (hs : s.supply = .normal) (h : (s.channel c).activeLevel = true) :
    s.chPin c = some (if (s.config c).activeLow then false else true) := by
  unfold State.chPin
  rw [if_pos hs, h]
  cases (s.config c).activeLow <;> rfl

theorem State.chPin_of_inactive (hs : s.supply = .normal) (h : (s.channel c).activeLevel = false) :
    s.chPin c = some (if (s.config c).activeLow then true else false) := by
  unfold State.chPin
  rw [if_pos hs, h]
  cases (s.config c).activeLow <;> rfl

/-! ### The guard timer (R118, R121) -/

theorem exec_guardExpiry_due (hr : s.running = true) (hg : (s.channel c).state = .guarding) (h0 : (s.channel c).guard = 0) :
    exec (.guardExpiry c) s = .next (s.withChannel c ((s.channel c).guardExpires (s.config c))) := by
  have hdue : (s.channel c).guardDue = true := decide_eq_true ⟨hg, h0⟩
  exact congrArg Host.Outcome.next (if_pos (by rw [hr, hdue]; rfl))

theorem exec_guardExpiry_early (h : (s.channel c).state ≠ .guarding ∨ 0 < (s.channel c).guard) :
    exec (.guardExpiry c) s = .next s := by
  have hdue : (s.channel c).guardDue = false := decide_eq_false fun ⟨hg, h0⟩ => by
    rcases h with h | h
    · exact h hg
    · omega
  exact congrArg Host.Outcome.next (if_neg (by rw [hdue, Bool.and_false]; exact Bool.false_ne_true))

theorem ChannelRun.guardExpires_changes {a : Action} (hg : run.state = .guarding) (hp : run.pending = some a)
    (ha : a ≠ run.commanded) : run.guardExpires cfg = ChannelRun.fresh cfg none a := by
  unfold ChannelRun.guardExpires
  rw [hp]
  refine (if_neg ha).trans (ChannelRun.change_eq (run := { run with pending := none }) ?_ cfg a)
  exact fun h => by cases hg.symm.trans h

theorem ChannelRun.guardExpires_settles (h0 : run.guard = 0) (hp : run.pending = none ∨ run.pending = some run.commanded) :
    run.guardExpires cfg = { run with state := .normal, pending := none } := by
  unfold ChannelRun.guardExpires
  rcases hp with hp | hp
  · simp only [hp, h0]
  · rw [hp]
    exact (if_pos rfl).trans (by rw [h0])

/-! ### The pulse phases (R121, R123) -/

theorem exec_pulsePhaseEnd_due (hr : s.running = true) (hw : (s.channel c).wave = .onPhase ∨ (s.channel c).wave = .offPhase)
    (h0 : (s.channel c).phaseTicks = 0) :
    exec (.pulsePhaseEnd c) s = .next (s.withChannel c (s.channel c).phaseEnds) := by
  have hdue : (s.channel c).phaseDue = true := decide_eq_true ⟨hw, h0⟩
  exact congrArg Host.Outcome.next (if_pos (by rw [hr, hdue]; rfl))

theorem exec_pulsePhaseEnd_early
    (h : (s.channel c).wave = .steady ∨ (s.channel c).wave = .resting ∨ 0 < (s.channel c).phaseTicks) :
    exec (.pulsePhaseEnd c) s = .next s := by
  have hdue : (s.channel c).phaseDue = false := decide_eq_false fun ⟨hw, h0⟩ => by
    rcases h with h | h | h
    · rw [h] at hw; simp at hw
    · rw [h] at hw; simp at hw
    · omega
  exact congrArg Host.Outcome.next (if_neg (by rw [hdue, Bool.and_false]; exact Bool.false_ne_true))

theorem ChannelRun.phaseEnds_on {shape : Shape} (hc : run.commanded = .pulse shape) (hw : run.wave = .onPhase) :
    run.phaseEnds = { run with wave := .offPhase, phaseTicks := shape.offWidth.toNat } := by
  unfold ChannelRun.phaseEnds
  rw [hc]
  dsimp only
  rw [hw]

theorem ChannelRun.phaseEnds_off_endless {shape : Shape} (hc : run.commanded = .pulse shape) (hw : run.wave = .offPhase)
    (hb : shape.burst = 0) : run.phaseEnds = { run with wave := .onPhase, phaseTicks := shape.onWidth.toNat } := by
  unfold ChannelRun.phaseEnds
  rw [hc]
  dsimp only
  rw [hw]
  exact if_pos hb

/-- The end of an off phase of a finite burst: the cycle is counted, and the last one is followed by rest. -/
theorem ChannelRun.phaseEnds_off_finite {shape : Shape} (hc : run.commanded = .pulse shape) (hw : run.wave = .offPhase)
    (hb : shape.burst ≠ 0) :
    run.phaseEnds =
      { run with
        cycles := run.cycles + 1
        wave := if run.cycles + 1 = shape.burst then .resting else .onPhase
        phaseTicks := if run.cycles + 1 = shape.burst then 0 else shape.onWidth.toNat } := by
  unfold ChannelRun.phaseEnds
  rw [hc]
  dsimp only
  rw [hw]
  dsimp only
  rw [if_neg hb]
  split <;> rfl

/-- Settles O47. -/
theorem channelTimersExpire : Obligations.ChannelTimersExpire := by
  unfold Obligations.ChannelTimersExpire
  refine ⟨fun s c hs => ⟨fun hc => ?_, fun hc => ?_, fun shape hc => ⟨fun hw => ?_, fun hw => ?_⟩⟩, fun s c hs => if_neg hs,
    fun s c hr => ⟨fun hg h0 => ⟨fun a hp ha => ?_, fun hp => ?_⟩, exec_guardExpiry_early, exec_pulsePhaseEnd_early,
      fun shape hc h0 => ⟨fun hw => ?_, fun hw hb => ?_, fun hw hb => ?_⟩⟩⟩
  · exact State.chPin_of_active hs (by rw [ChannelRun.activeLevel, hc])
  · exact State.chPin_of_inactive hs (by rw [ChannelRun.activeLevel, hc])
  · exact State.chPin_of_active hs (by rw [ChannelRun.activeLevel, hc]; dsimp only; rw [hw])
  · refine State.chPin_of_inactive hs ?_
    rw [ChannelRun.activeLevel, hc]
    dsimp only
    rcases hw with hw | hw
    · rw [hw]
    · rw [hw]
  · rw [exec_guardExpiry_due hr hg h0, ChannelRun.guardExpires_changes hg hp ha]
    rfl
  · rw [exec_guardExpiry_due hr hg h0, ChannelRun.guardExpires_settles h0 hp]
    rfl
  · rw [exec_pulsePhaseEnd_due hr (.inl hw) h0, ChannelRun.phaseEnds_on hc hw]
    rfl
  · rw [exec_pulsePhaseEnd_due hr (.inr hw) h0, ChannelRun.phaseEnds_off_endless hc hw hb]
    rfl
  · rw [exec_pulsePhaseEnd_due hr (.inr hw) h0, ChannelRun.phaseEnds_off_finite hc hw hb]
    rfl

/-! ### The proof monitor (R125 to R129) -/

theorem loadShown_eq (cfg : ChannelConfig) (high : Bool) : loadShown cfg high = (high != cfg.invertedSense) := by
  unfold loadShown
  cases cfg.invertedSense <;> cases high <;> rfl

theorem State.senseAgrees_iff :
    s.senseAgrees c = true ↔ (s.pins.senses[c] != (s.config c).invertedSense) = decide ((s.channel c).commanded = .on) := by
  unfold State.senseAgrees
  rw [decide_eq_true_iff, loadShown_eq]

theorem exec_proofTimerExpiry_due (hr : s.running = true)
    (hp : (s.channel c).proof = .settling ∨ (s.channel c).proof = .disagree) (h0 : (s.channel c).proofTicks = 0) :
    exec (.proofTimerExpiry c) s =
      .next (if s.senseAgrees c then s.withChannel c { s.channel c with proof := .agree, proofTicks := 0 }
        else s.enterFaulted c) := by
  have hdue : (s.channel c).proofDue = true := decide_eq_true ⟨hp, h0⟩
  exact congrArg Host.Outcome.next (if_pos (by rw [hr, hdue]; rfl))

theorem exec_proofTimerExpiry_early
    (h : (s.channel c).proof ≠ .settling ∧ (s.channel c).proof ≠ .disagree ∨ 0 < (s.channel c).proofTicks) :
    exec (.proofTimerExpiry c) s = .next s := by
  have hdue : (s.channel c).proofDue = false := decide_eq_false fun ⟨hp, h0⟩ => by
    rcases h with ⟨hset, hdis⟩ | h
    · exact hp.elim hset hdis
    · omega
  exact congrArg Host.Outcome.next (if_neg (by rw [hdue, Bool.and_false]; exact Bool.false_ne_true))

/-- A channel set as it was is no change. -/
theorem State.withChannel_self (s : State) (c : Chan) : s.withChannel c (s.channel c) = s := by
  unfold State.withChannel State.channel
  simp

/-- What the monitor makes of the sense that its pin now has. -/
theorem State.watchSense_judged (s : State) (c : Chan) :
    s.watchSense c =
      s.withChannel c
        (if (s.channel c).proof = .agree ∧ s.senseAgrees c = false then
          { s.channel c with proof := .disagree, proofTicks := (s.config c).proofTime.toNat }
        else if (s.channel c).proof = .disagree ∧ s.senseAgrees c = true then
          { s.channel c with proof := .agree, proofTicks := 0 }
        else s.channel c) := by
  unfold State.watchSense
  cases hp : (s.channel c).proof with
  | agree => cases ha : s.senseAgrees c <;> simp [State.withChannel_self]
  | disagree => cases ha : s.senseAgrees c <;> simp [State.withChannel_self]
  | idle => simp [State.withChannel_self]
  | settling => simp [State.withChannel_self]
  | fault => simp [State.withChannel_self]

/-- Settles O48. -/
theorem proofMonitorJudges : Obligations.ProofMonitorJudges := by
  unfold Obligations.ProofMonitorJudges
  refine ⟨fun s c hr hp h0 => ⟨fun ha => ?_, fun ha => ?_⟩, fun s c => exec_proofTimerExpiry_early, fun s c high hr => ?_,
    fun s c high hr => ?_⟩
  · rw [exec_proofTimerExpiry_due hr hp h0, if_pos (State.senseAgrees_iff.2 ha), ← h0]
    rfl
  · rw [exec_proofTimerExpiry_due hr hp h0, if_neg (fun h => ha (State.senseAgrees_iff.1 h))]
    exact ⟨_, rfl, rfl⟩
  · have hpin : s.sensePin c high = s.withPins { s.pins with senses := s.pins.senses.set c high } :=
      if_neg (by rw [hr]; exact Bool.false_ne_true)
    exact congrArg Host.Outcome.next hpin
  · let u := s.withPins { s.pins with senses := s.pins.senses.set c high }
    have hpin : s.sensePin c high = u.watchSense c := if_pos hr
    have hagree : u.senseAgrees c = true ↔
        (high != (s.config c).invertedSense) = decide ((s.channel c).commanded = .on) := by
      rw [State.senseAgrees_iff, show u.pins.senses[c] = high from Vector.getElem_set_self _]
      rfl
    have hexec : exec (.senseChange c high) s = .next (s.sensePin c high) := rfl
    rw [hexec, hpin, State.watchSense_judged]
    simp only [← Bool.not_eq_true, hagree]
    rfl

end Sys2Proof.Machine
end

section
/-! PROOFS. The sweep's visit to a slot, and the ends of occurrences (O43, O44; sections 3.2 to 3.4). -/

namespace Sys2Proof.Machine

variable {s t : State} {i : SlotNo} {e : Entry} {m : Minute}

/-! ### A visit's effect, and the cursor that then moves on

What the effects say of the engine is their own equation of `t`, so they hold with every engine behind them. -/

section
variable (x : Engine)

theorem State.evaluationOnly_withEngine (h : s.evaluationOnly t) : s.evaluationOnly (t.withEngine x) := by
  unfold State.evaluationOnly at h ⊢
  rw [h]
  rfl

theorem State.placesEntry_withEngine {gen : Byte} {raised : BitVec 5} (h : s.placesEntry t i gen e raised) :
    s.placesEntry (t.withEngine x) i gen e raised := by
  obtain ⟨hslot, hnotice, hkept, hnot, hothers, hch, hnch, honly, hplaced⟩ := h
  refine ⟨hslot, hnotice, hkept, hnot, hothers, hch, hnch, honly, ?_⟩
  unfold State.placementOnly at hplaced ⊢
  rw [hplaced]
  rfl

theorem State.activates_withEngine {d : Date} (h : s.activates t i e d) : s.activates (t.withEngine x) i e d :=
  State.placesEntry_withEngine x h

theorem State.rejoins_withEngine {close : Minute} (h : s.rejoins t i e close) : s.rejoins (t.withEngine x) i e close :=
  State.placesEntry_withEngine x h

theorem State.spends_withEngine (h : s.spends t i e) : s.spends (t.withEngine x) i e := by
  obtain ⟨hfreed, hkept, hslot, harb, hch, heval⟩ := h
  exact ⟨hfreed, hkept, hslot, harb, hch, State.evaluationOnly_withEngine x heval⟩

theorem State.misses_withEngine (h : s.misses t i e) : s.misses (t.withEngine x) i e := by
  obtain ⟨hentry, hnotice, hslot, harb, hch, heval⟩ := h
  exact ⟨hentry, hnotice, hslot, harb, hch, State.evaluationOnly_withEngine x heval⟩

theorem State.endsOccurrence_withEngine (h : s.endsOccurrence t i e) : s.endsOccurrence (t.withEngine x) i e := by
  obtain ⟨hslot, hwithdraws, honlySlot, honly, heval⟩ := h
  exact ⟨hslot, hwithdraws, honlySlot, honly, State.evaluationOnly_withEngine x heval⟩

theorem State.passesBy_withEngine (h : s.passesBy t i e) : s.passesBy (t.withEngine x) i e := by
  unfold State.passesBy at h ⊢
  rw [h]
  rfl

theorem State.admits_withEngine (h : s.admits t i e m) : s.admits (t.withEngine x) i e m := by
  unfold State.admits at h ⊢
  cases hw : e.rejoinWindow m with
  | some close =>
    rw [hw] at h
    exact State.rejoins_withEngine x h
  | none =>
    rw [hw] at h
    dsimp only at h ⊢
    by_cases hb : e.remBudget = some 0
    · rw [if_pos hb] at h ⊢
      exact State.spends_withEngine x h
    · rw [if_neg hb] at h ⊢
      cases ha : e.admissible s.dates s.clock.date m with
      | some d =>
        rw [ha] at h
        exact State.activates_withEngine x h
      | none =>
        rw [ha] at h
        exact State.passesBy_withEngine x h

end

/-! ### The sweep's visit -/

theorem exec_sweepVisit_eq (hr : s.running = true) (hn : s.engine.wipe = none) (hw : s.engine.work = .sweep m i.val) :
    exec .sweepVisit s =
      .next ((s.sweepSlot i m).withEngine { s.engine with work := .sweep m (i.val + 1) }) := by
  have hif : (s.running && s.engine.wipe.isNone) = true := by rw [hr, hn]; rfl
  have hexec : exec .sweepVisit s = .next s.sweepStep := rfl
  rw [hexec]
  unfold State.sweepStep
  rw [if_pos hif, hw]
  dsimp only
  rw [cursorSlot_val]
  dsimp only
  rw [(sweepSlot_eval s i m).engine]

theorem State.sweepSlot_passes (h : ∀ e, (s.slot i).entry = some e → e.state = .suspended ∨ e.state = .spent) (m : Minute) :
    s.sweepSlot i m = s := by
  unfold State.sweepSlot
  cases he : (s.slot i).entry with
  | none => rfl
  | some e =>
    rcases h e he with hs | hs
    · dsimp only
      rw [hs]
    · dsimp only
      rw [hs]

/-- The until date of an entry has passed at the 00:00 sweep (R42). -/
def Entry.pastAt (e : Entry) (m : Minute) : Bool :=
  decide (m.time = DayMinute.midnight) && e.defn.pastUntil m.date

theorem State.sweepSlot_armed (he : (s.slot i).entry = some e) (ha : e.state = .armed) (m : Minute) :
    s.sweepSlot i m =
      if e.pastAt m then s.spendArmed i
      else if e.admissionDue then s.admitOne i m
      else s.startCheck i e m := by
  unfold State.sweepSlot
  rw [he]
  dsimp only
  rw [ha]
  rfl

theorem State.sweepSlot_active (he : (s.slot i).entry = some e) (ha : e.state = .active) (m : Minute) :
    s.sweepSlot i m = (if e.pastAt m then s.setFinal i else s).endCheck i e m := by
  unfold State.sweepSlot
  rw [he]
  dsimp only
  rw [ha]
  rfl

/-- The start check finds the start of an occurrence at `m` that the entry has not had (R44). -/
def Entry.startsAt (e : Entry) (dates : DateSet) (m : Minute) : Bool :=
  decide (e.defn.start = m.time) && e.defn.startsToday dates m.date && !stampNames e.stamp m.date e.defn.start

theorem Entry.startsAt_iff {dates : DateSet} :
    e.startsAt dates m = true ↔
      e.defn.start = m.time ∧ e.defn.matchesClass dates.today = true ∧ e.defn.validOn m.date = true ∧
        e.stamp ≠ some { date := m.date, time := e.defn.start } := by
  unfold Entry.startsAt Definition.startsToday stampNames
  simp [and_assoc]

theorem State.startCheck_eq (hb : e.remBudget ≠ some 0) :
    s.startCheck i e m = if e.startsAt s.dates m then s.activate i m.date else s :=
  if_neg hb

/-- Settles O43: the visit is the branch of R42 to R44 that the entry is in, with the cursor moved on. -/
theorem sweepVisitStarts : Obligations.SweepVisitStarts := by
  unfold Obligations.SweepVisitStarts
  intro s m i hr hn hw
  have hexec := exec_sweepVisit_eq hr hn hw
  refine ⟨fun h => ?_, fun e he ha => ⟨_, hexec, rfl, fun hm hp => ?_, fun hp => ?_⟩⟩
  · rw [hexec, State.sweepSlot_passes h]
    rfl
  · have hpast : e.pastAt m = true := by
      unfold Entry.pastAt
      rw [hp, Bool.and_true]
      exact decide_eq_true hm
    rw [State.sweepSlot_armed he ha, if_pos hpast]
    exact State.spends_withEngine _ (State.spendArmed_spends he).1
  · have hpast : ¬e.pastAt m = true := by
      unfold Entry.pastAt
      rw [Bool.and_eq_true, decide_eq_true_eq]
      rintro ⟨hm, hu⟩
      rcases hp with hp | hp
      · exact hp hm
      · rw [hp] at hu
        cases hu
    rw [State.sweepSlot_armed he ha, if_neg hpast]
    refine ⟨fun hd => ?_, fun hd hb => ?_, fun hd hb => ⟨fun hno => ?_, fun h1 h2 h3 h4 => ?_⟩⟩
    · rw [if_pos hd]
      exact State.admits_withEngine _ (State.admitOne_admits he m).1
    · rw [if_neg (by rw [hd]; exact Bool.false_ne_true), show s.startCheck i e m = s.spendArmed i from if_pos hb]
      exact State.spends_withEngine _ (State.spendArmed_spends he).1
    · have hstart : ¬e.startsAt s.dates m = true := by
        rw [Entry.startsAt_iff]
        rintro ⟨h1, h2, h3, h4⟩
        rcases hno with h | h | h | h
        · exact h h1
        · rw [h2] at h; cases h
        · rw [h3] at h; cases h
        · exact h4 h
      rw [if_neg (by rw [hd]; exact Bool.false_ne_true), State.startCheck_eq hb, if_neg hstart]
      rfl
    · rw [if_neg (by rw [hd]; exact Bool.false_ne_true), State.startCheck_eq hb,
        if_pos (Entry.startsAt_iff.2 ⟨h1, h2, h3, h4⟩)]
      exact State.activates_withEngine _ (State.activate_activates he m.date).1

/-! ### The ends of occurrences -/

/-- A slot that takes the entry it holds is no change. -/
theorem State.markEntry_self (he : (s.slot i).entry = some e) : s.markEntry i e = s := by
  have hx : ({ gen := (s.slot i).gen, entry := some e } : Slot) = s.slot i := by rw [← he]
  unfold State.markEntry
  rw [hx, State.withSlot_slot]

/-- A visit that finds an ACTIVE entry past its until date makes it final (R42, R55). -/
def Entry.finalIf (e : Entry) (past : Bool) : Entry :=
  { e with final := e.final || past }

theorem State.setFinal_eq (he : (s.slot i).entry = some e) (past : Bool) :
    (if past then s.setFinal i else s) = s.markEntry i (e.finalIf past) := by
  cases past with
  | true =>
    unfold State.setFinal Entry.finalIf
    rw [if_pos rfl, he, Bool.or_true]
  | false =>
    have hf : e.finalIf false = e := by
      unfold Entry.finalIf
      rw [Bool.or_false]
    rw [hf, State.markEntry_self he]
    rfl

/-- The end of an occurrence, told from a state in which the entry is not yet marked. -/
theorem State.endsOccurrence_of_marked {f : Entry} (h : (s.markEntry i f).endsOccurrence t i e) : s.endsOccurrence t i e := by
  obtain ⟨hslot, hwithdraws, honlySlot, honly, heval⟩ := h
  have hgen : ((s.markEntry i f).slot i).gen = (s.slot i).gen := by
    unfold State.markEntry
    rw [State.slot_withSlot_self]
  refine ⟨?_, hwithdraws, fun j hj => ?_, honly, heval⟩
  · rw [hgen] at hslot
    exact hslot
  · obtain ⟨hother, hnotice⟩ := honlySlot j hj
    exact ⟨hother.trans (State.slot_withSlot_ne _ _ hj), hnotice⟩

theorem State.markEntry_entry (s : State) (i : SlotNo) (e : Entry) : ((s.markEntry i e).slot i).entry = some e := by
  unfold State.markEntry
  rw [State.slot_withSlot_self]

/-- The marked entry's occurrence ends. -/
theorem State.endOccurrence_marked (s : State) (i : SlotNo) (f : Entry) :
    s.endsOccurrence ((s.markEntry i f).endOccurrence i) i f ∧ ((s.markEntry i f).endOccurrence i).engine = s.engine := by
  obtain ⟨hends, hengine⟩ := State.endOccurrence_ends (State.markEntry_entry s i f)
  exact ⟨State.endsOccurrence_of_marked hends, hengine⟩

theorem State.endCheck_ends {u : State} {stop : DayMinute} (hk : e.defn.kind = .span stop) (hd : e.endDue = some m) :
    u.endCheck i e m = u.endOccurrence i := by
  unfold State.endCheck
  rw [hk]
  exact if_pos hd

theorem State.endCheck_passes {u : State} (h : (∃ duration, e.defn.kind = .event duration) ∨ e.endDue ≠ some m) :
    u.endCheck i e m = u := by
  unfold State.endCheck
  cases hk : e.defn.kind with
  | event duration => rfl
  | span stop =>
    rcases h with ⟨duration, h⟩ | h
    · cases hk.symm.trans h
    · exact if_neg h

theorem State.eventDue_eq {duration : Nat} (he : (s.slot i).entry = some e) (ha : e.state = .active)
    (hk : e.defn.kind = .event duration) (hi : e.interrupted = false) : s.eventDue i = decide (e.remSeconds = 0) := by
  have hc : e.counts = true := Entry.counts_iff.2 ⟨ha, by rw [hk]; rfl, hi⟩
  unfold State.eventDue
  rw [he]
  dsimp only
  rw [hc, Bool.true_and]

/-- Settles O44. -/
theorem occurrencesEnd : Obligations.OccurrencesEnd := by
  unfold Obligations.OccurrencesEnd
  refine ⟨fun s m i e f hr hn hw he ha hf => ?_, fun s i e duration hr he ha hk hi => ⟨fun hpos => ?_, fun h0 => ?_⟩⟩
  · have hexec := exec_sweepVisit_eq hr hn hw
    have hfinal : f = e.finalIf (e.pastAt m) := hf
    rw [State.sweepSlot_active he ha, State.setFinal_eq he, ← hfinal] at hexec
    refine ⟨fun stop hk hd => ?_, fun h => ?_⟩
    · rw [State.endCheck_ends hk hd] at hexec
      exact ⟨_, hexec, State.endsOccurrence_withEngine _ (s.endOccurrence_marked i f).1, rfl⟩
    · rw [State.endCheck_passes h] at hexec
      exact hexec
  · refine congrArg Host.Outcome.next (if_neg ?_)
    rw [hr, State.eventDue_eq he ha hk hi, Bool.true_and, decide_eq_true_eq]
    omega
  · have hends : exec (.eventCountdownEnd i) s = .next (s.endOccurrence i) := by
      refine congrArg Host.Outcome.next (if_pos ?_)
      rw [hr, State.eventDue_eq he ha hk hi, Bool.true_and, decide_eq_true_eq]
      exact h0
    obtain ⟨h, hengine⟩ := State.endOccurrence_ends he
    exact ⟨_, hends, h, hengine⟩

end Sys2Proof.Machine
end

section
/-! PROOFS. The resync's visit to a slot (O45; section 3.6). -/

namespace Sys2Proof.Machine

variable {s t : State} {i : SlotNo} {e f : Entry} {T : Moment} {skipped : Skipped}

theorem exec_resyncVisit_eq (hr : s.running = true) (hw : s.engine.work = .resync T skipped i.val) :
    exec .resyncVisit s =
      .next ((s.resyncSlot i T skipped).withEngine { s.engine with work := .resync T skipped (i.val + 1) }) := by
  have hexec : exec .resyncVisit s = .next s.resyncStep := rfl
  rw [hexec]
  unfold State.resyncStep
  rw [if_pos hr, hw]
  dsimp only
  rw [cursorSlot_val]
  dsimp only
  rw [(resyncSlot_eval s i T skipped).engine]

theorem State.resyncSlot_passes (h : ∀ e, (s.slot i).entry = some e → e.state = .suspended ∨ e.state = .spent) :
    s.resyncSlot i T skipped = s := by
  unfold State.resyncSlot
  cases he : (s.slot i).entry with
  | none => rfl
  | some e =>
    rcases h e he with hs | hs
    · dsimp only
      rw [hs]
    · dsimp only
      rw [hs]

theorem State.resyncSlot_armed (he : (s.slot i).entry = some e) (ha : e.state = .armed) :
    s.resyncSlot i T skipped = (s.resyncArmedSteps i e T skipped).closeAdmission i := by
  unfold State.resyncSlot State.resyncArmed
  rw [he]
  dsimp only
  rw [ha]

theorem State.resyncSlot_active (he : (s.slot i).entry = some e) (ha : e.state = .active) :
    s.resyncSlot i T skipped =
      (s.markEntry i (e.finalIf (e.defn.pastUntil T.date))).resyncActive i T skipped := by
  unfold State.resyncSlot
  rw [he]
  dsimp only
  rw [ha]
  dsimp only
  rw [State.setFinal_eq he]

/-! ### ACTIVE entries (R56, R57) -/

theorem State.resyncActive_span {stop : DayMinute} (he : (s.slot i).entry = some f) (hk : f.defn.kind = .span stop) :
    s.resyncActive i T skipped = s.resyncActiveSpan i f stop T skipped := by
  unfold State.resyncActive
  rw [he]
  dsimp only
  rw [hk]

theorem State.resyncActive_event {duration : Nat} (he : (s.slot i).entry = some f) (hk : f.defn.kind = .event duration) :
    s.resyncActive i T skipped = s.resyncActiveEvent i f T skipped := by
  unfold State.resyncActive
  rw [he]
  dsimp only
  rw [hk]

theorem Entry.inStampedWindow_eq {stop : DayMinute} {m : Minute} (hs : e.stamp = some m) (x : Minute) :
    e.inStampedWindow stop x = inWindow m.date m.time stop x := by
  unfold Entry.inStampedWindow
  rw [hs]

theorem State.resyncActiveSpan_inside {stop : DayMinute} {m : Minute} (hs : f.stamp = some m)
    (hin : inWindow m.date m.time stop T.minuteOf = true) :
    s.resyncActiveSpan i f stop T skipped =
      if f.held then s.markEntry i { f with interrupted := false }
      else (s.markEntry i { f with interrupted := false }).placeEntryClaim i :=
  if_pos ((Entry.inStampedWindow_eq hs _).trans hin)

theorem State.resyncActiveSpan_outside {stop : DayMinute} {m : Minute} (hs : f.stamp = some m)
    (hin : inWindow m.date m.time stop T.minuteOf = false) :
    s.resyncActiveSpan i f stop T skipped = s.endAndContinue i T skipped :=
  if_neg (by rw [Entry.inStampedWindow_eq hs, hin]; exact Bool.false_ne_true)

theorem State.markEntry_markEntry (s : State) (i : SlotNo) (e f : Entry) :
    (s.markEntry i e).markEntry i f = s.markEntry i f := by
  unfold State.markEntry
  rw [State.slot_withSlot_self]
  simp [State.withSlot]

/-- A SPAN that stays in its window has its claim again (R56). -/
theorem State.placeEntryClaim_marked (s : State) (i : SlotNo) (e : Entry) :
    s.placesEntry ((s.markEntry i e).placeEntryClaim i) i (s.slot i).gen e 0 := by
  obtain ⟨h, -⟩ := State.placeEntryClaim_places (State.markEntry_entry s i e)
  have hgen : ((s.markEntry i e).slot i).gen = (s.slot i).gen := by
    unfold State.markEntry
    rw [State.slot_withSlot_self]
  rw [hgen] at h
  exact State.placesEntry_of_withSlot h

/-- An occurrence that has ended in SPENT ends the visit. -/
theorem State.endAndContinue_spent {v : State} (hv : s.endOccurrence i = v)
    (h : (v.slot i).entry = none ∨ ∃ e, (v.slot i).entry = some e ∧ e.state = .spent) :
    s.endAndContinue i T skipped = v := by
  unfold State.endAndContinue
  rw [hv]
  rcases h with h | ⟨e, h, hs⟩
  · dsimp only
    rw [h]
  · dsimp only
    rw [h]
    dsimp only
    rw [hs]

/-- One that has ended in ARMED is visited on (R55). -/
theorem State.endAndContinue_armed {v : State} (hv : s.endOccurrence i = v) (h : (v.slot i).entry = some e)
    (ha : e.state = .armed) : s.endAndContinue i T skipped = v.resyncSlot i T skipped := by
  unfold State.endAndContinue State.resyncSlot
  rw [hv]
  dsimp only
  rw [h]
  dsimp only
  rw [ha]

/-- The visit of an entry whose occurrence ends: with what `v` holds after the end, it is over or goes on from there. -/
theorem exec_resyncVisit_ends (hr : s.running = true) (hw : s.engine.work = .resync T skipped i.val)
    (h : s.resyncSlot i T skipped = (s.markEntry i f).endAndContinue i T skipped) :
    ∃ v t, s.endsOccurrence v i f ∧ v.engine = s.engine ∧ exec .resyncVisit s = .next t ∧
      (f.remBudget = some 0 ∨ f.final = true →
        t = { v with engine := { s.engine with work := .resync T skipped (i.val + 1) } }) ∧
      (f.remBudget ≠ some 0 → f.final = false → exec .resyncVisit v = .next t) := by
  obtain ⟨hends, hengine⟩ := s.endOccurrence_marked i f
  have hrunning : ((s.markEntry i f).endOccurrence i).running = true := (endOccurrence_eval (s.markEntry i f) i).running.trans hr
  have hexec := exec_resyncVisit_eq hr hw
  rw [h] at hexec
  have hslot := hends.1
  generalize hv : (s.markEntry i f).endOccurrence i = v at hends hengine hslot hrunning
  refine ⟨v, _, hends, hengine, hexec, fun hspent => ?_, fun hb hf => ?_⟩
  · rw [if_pos hspent] at hslot
    obtain ⟨hfreed, hkept⟩ := hslot
    rw [State.endAndContinue_spent hv]
    · rfl
    · by_cases hfree : f.defn.freedWhenSpent
      · exact .inl (congrArg Slot.entry (hfreed hfree).1)
      · exact .inr ⟨_, congrArg Slot.entry (hkept hfree).1, rfl⟩
  · have hnot : ¬(f.remBudget = some 0 ∨ f.final = true) := by
      rintro (h | h)
      · exact hb h
      · rw [hf] at h
        cases h
    rw [if_neg hnot] at hslot
    have hvisit := exec_resyncVisit_eq (s := v) (i := i) hrunning (by rw [hengine]; exact hw)
    rw [hengine] at hvisit
    rw [State.endAndContinue_armed hv (congrArg Slot.entry hslot.1) rfl]
    exact hvisit

/-! ### ARMED entries (R55, R58 to R60) -/

theorem State.activates_close {d : Date} (h : s.activates t i e d) : s.activates (t.closeAdmission i) i e d :=
  State.placesEntry_close h

theorem State.closeAdmission_passesBy (he : (s.slot i).entry = some e) : s.passesBy (s.closeAdmission i) i e := by
  unfold State.closeAdmission State.passesBy
  rw [he]
  rfl

theorem State.raiseMissed_misses (he : (s.slot i).entry = some e) :
    s.misses ((s.raiseEntry i .missed).closeAdmission i) i e := by
  obtain ⟨pulse, heq⟩ := State.raiseEntry_eq he .missed
  let raised : Attention :=
    { s.attention with
      entryNotices :=
        s.attention.entryNotices.set i (s.attention.entryNotices[i] ||| (e.defn.notify &&& EntryCause.missed.bit))
      pulse := pulse }
  have hentry : ((s.withAttention raised).slot i).entry = some e := he
  have hclose := State.closeAdmission_passesBy hentry
  unfold State.passesBy at hclose
  rw [show s.raiseEntry i .missed = s.withAttention raised from heq, hclose]
  refine ⟨State.slot_withSlot_self s i _, Vector.getElem_set_self i.isLt, fun j hj => ⟨State.slot_withSlot_ne s _ hj, ?_⟩, rfl,
    rfl, rfl⟩
  exact Vector.getElem_set_ne i.isLt j.isLt (Fin.val_ne_of_ne hj.symm)

theorem Entry.missedSpan_iff {stop : DayMinute} {dates : DateSet} {today : Date} :
    e.missedSpan stop dates today T skipped = true ↔
      e.defn.start.ofDay ≤ stop.ofDay ∧ e.defn.startsOn dates today T.date = true ∧
        e.stamp ≠ some { date := T.date, time := e.defn.start } ∧ skipped.covers e.defn.start = true ∧
        skipped.covers stop = true := by
  unfold Entry.missedSpan crossesMidnight stampNames
  simp only [Bool.and_eq_true, Bool.not_eq_true', decide_eq_false_iff_not, Nat.not_lt]
  tauto

section
variable (hp : e.defn.pastUntil T.date = false) (hj : e.rejoinWindow T.minuteOf = none) (hb : e.remBudget ≠ some 0)
include hp hj hb

theorem State.resyncArmedSteps_span {stop : DayMinute} (hk : e.defn.kind = .span stop) :
    s.resyncArmedSteps i e T skipped = s.resyncArmedSpan i e stop T skipped := by
  unfold State.resyncArmedSteps
  rw [hp, hj, hk]
  exact if_neg hb

theorem State.resyncArmedSteps_event {duration : Nat} (hk : e.defn.kind = .event duration) :
    s.resyncArmedSteps i e T skipped = s.resyncArmedEvent i e T skipped := by
  unfold State.resyncArmedSteps
  rw [hp, hj, hk]
  exact if_neg hb

end

/-- An ARMED EVENT qualifies on the date of the resync's time (R59). -/
def Entry.qualifies (e : Entry) (dates : DateSet) (d : Date) : Bool :=
  e.defn.startsToday dates d && !stampNames e.stamp d e.defn.start

theorem Entry.qualifies_iff {dates : DateSet} {d : Date} :
    e.qualifies dates d = true ↔
      e.defn.startsToday dates d = true ∧ e.stamp ≠ some { date := d, time := e.defn.start } := by
  unfold Entry.qualifies stampNames
  simp

theorem State.resyncArmedEvent_eq :
    s.resyncArmedEvent i e T skipped =
      if e.qualifies s.dates T.date then
        if e.defn.start = T.time then s.activate i T.date
        else if skipped.covers e.defn.start then
          if e.defn.catchUp then s.activate i T.date else s.raiseEntry i .missed
        else s
      else s := rfl

theorem State.resyncArmedEvent_passes
    (h : ¬(e.qualifies s.dates T.date = true ∧ (e.defn.start = T.time ∨ skipped.covers e.defn.start = true))) :
    s.resyncArmedEvent i e T skipped = s := by
  rw [State.resyncArmedEvent_eq]
  by_cases hq : e.qualifies s.dates T.date = true
  · rw [if_pos hq, if_neg fun h1 => h ⟨hq, .inl h1⟩, if_neg fun h1 => h ⟨hq, .inr h1⟩]
  · rw [if_neg hq]

/-- Settles O45. -/
theorem resyncVisitCatchesUp : Obligations.ResyncVisitCatchesUp := by
  unfold Obligations.ResyncVisitCatchesUp
  intro s T skipped i hr hw
  have hexec := exec_resyncVisit_eq hr hw
  refine ⟨fun h => ?_, fun e f he ha hf => ?_, fun e he ha => ?_⟩
  · rw [hexec, State.resyncSlot_passes h]
    rfl
  · have hfinal : f = e.finalIf (e.defn.pastUntil T.date) := hf
    have hactive := State.resyncSlot_active (T := T) (skipped := skipped) he ha
    rw [← hfinal] at hactive
    have hmarked := State.markEntry_entry s i f
    have hdefn : f.defn = e.defn := by rw [hf]
    have hstamp : f.stamp = e.stamp := by rw [hf]
    have hheld : f.held = e.held := by rw [hf]
    have hinterrupted : f.interrupted = e.interrupted := by rw [hf]
    refine ⟨fun stop m hk hs hin => ?_, fun duration hk hi => ?_, fun hout => ?_⟩
    · rw [State.resyncActive_span hmarked (hdefn ▸ hk), State.resyncActiveSpan_inside (hstamp.trans hs) hin,
        State.markEntry_markEntry] at hactive
      refine ⟨fun hh => ?_, fun hh => ?_⟩
      · rw [hactive, if_pos (hheld.trans hh)] at hexec
        exact hexec
      · rw [hactive, if_neg (by rw [hheld, hh]; exact Bool.false_ne_true)] at hexec
        exact ⟨_, hexec, State.placesEntry_withEngine _ (s.placeEntryClaim_marked i { f with interrupted := false }), rfl⟩
    · rw [State.resyncActive_event hmarked (hdefn ▸ hk)] at hactive
      rw [hactive, show (s.markEntry i f).resyncActiveEvent i f T skipped = s.markEntry i f from
        if_neg (by rw [hinterrupted, hi]; exact Bool.false_ne_true)] at hexec
      exact hexec
    · refine exec_resyncVisit_ends hr hw (hactive.trans ?_)
      rcases hout with ⟨stop, m, hk, hs, hin⟩ | ⟨⟨duration, hk⟩, hi⟩
      · rw [State.resyncActive_span hmarked (hdefn ▸ hk), State.resyncActiveSpan_outside (hstamp.trans hs) hin]
      · rw [State.resyncActive_event hmarked (hdefn ▸ hk)]
        exact if_pos (hinterrupted.trans hi)
  · rw [State.resyncSlot_armed he ha] at hexec
    refine ⟨_, hexec, rfl, fun hp => ?_, fun hp => ⟨fun close hj => ?_, fun hj hb => ?_, fun hj hb => ⟨fun stop hk => ?_,
      fun duration hk => ?_⟩⟩⟩
    · rw [show s.resyncArmedSteps i e T skipped = s.spendArmed i from if_pos hp]
      exact State.spends_withEngine _ (State.spends_close (State.spendArmed_spends he).1)
    · have hsteps : s.resyncArmedSteps i e T skipped = s.rejoinEntry i close := by
        unfold State.resyncArmedSteps
        rw [hp, hj]
        rfl
      rw [hsteps]
      exact State.rejoins_withEngine _ (State.rejoinEntry_rejoins he close).1
    · have hsteps : s.resyncArmedSteps i e T skipped = s.spendArmed i := by
        unfold State.resyncArmedSteps
        rw [hp, hj]
        exact if_pos hb
      rw [hsteps]
      exact State.spends_withEngine _ (State.spends_close (State.spendArmed_spends he).1)
    · rw [State.resyncArmedSteps_span hp hj hb hk]
      unfold State.resyncArmedSpan
      refine ⟨fun d hd => ?_, fun hd => ?_⟩
      · rw [hd]
        exact State.activates_withEngine _ (State.activates_close (State.activate_activates he d).1)
      · rw [hd]
        dsimp only
        refine ⟨fun hm => ?_, fun hm => ?_⟩
        · rw [if_pos (Entry.missedSpan_iff.2 hm)]
          exact State.misses_withEngine _ (State.raiseMissed_misses he)
        · have hmiss : ¬e.missedSpan stop s.dates s.clock.date T skipped = true := by
            rw [Entry.missedSpan_iff]
            rintro ⟨h1, h2, h3, h4, h5⟩
            rcases hm with h | h | h | h | h
            · exact Nat.not_le.2 h h1
            · rw [h2] at h; cases h
            · exact h3 h
            · rw [h4] at h; cases h
            · rw [h5] at h; cases h
          rw [if_neg hmiss]
          exact State.passesBy_withEngine _ (State.closeAdmission_passesBy he)
    · rw [State.resyncArmedSteps_event hp hj hb hk]
      refine ⟨fun hno => ?_, fun ht hs => ?_⟩
      · have hpass : ¬(e.qualifies s.dates T.date = true ∧ (e.defn.start = T.time ∨ skipped.covers e.defn.start = true)) := by
          rw [Entry.qualifies_iff]
          rintro ⟨⟨ht, hs⟩, hwhen⟩
          rcases hno with h | h | ⟨h, hc⟩
          · rw [ht] at h; cases h
          · exact hs h
          · rcases hwhen with hw | hw
            · exact h hw
            · rw [hc] at hw; cases hw
        rw [State.resyncArmedEvent_passes hpass]
        exact State.passesBy_withEngine _ (State.closeAdmission_passesBy he)
      · rw [State.resyncArmedEvent_eq, if_pos (Entry.qualifies_iff.2 ⟨ht, hs⟩)]
        refine ⟨fun hwhen => ?_, fun h1 h2 h3 => ?_⟩
        · have hactivate : State.activates s ((s.activate i T.date).closeAdmission i |>.withEngine
              { s.engine with work := .resync T skipped (i.val + 1) }) i e T.date :=
            State.activates_withEngine _ (State.activates_close (State.activate_activates he T.date).1)
          rcases hwhen with h | ⟨h, hc⟩
          · rw [if_pos h]
            exact hactivate
          · rw [if_pos h, if_pos hc]
            split <;> exact hactivate
        · rw [if_neg h1, if_pos h2, if_neg (by rw [h3]; exact Bool.false_ne_true)]
          exact State.misses_withEngine _ (State.raiseMissed_misses he)

end Sys2Proof.Machine
end

section
/-! PROOFS. The crystal and the loss of the clock's validity (O50; sections 8.1 and 8.3). -/

namespace Sys2Proof.Machine

variable {s : State}

/-! ### The timebase (R148) -/

theorem State.crystalEdge_starts (hc : s.supply ≠ .cold) (h : s.timebase.state = .off ∨ s.timebase.state = .failed) :
    s.crystalEdge = s.setTimebase .starting := by
  unfold State.crystalEdge
  rw [if_neg hc]
  rcases h with h | h
  · rw [h]
  · rw [h]

theorem State.crystalTrusted_runs (hc : s.supply ≠ .cold) (h : s.timebase.state = .starting) :
    s.crystalTrusted = s.setTimebase .running := by
  unfold State.crystalTrusted
  rw [if_neg hc, h]

theorem State.crystalGap_starting (hc : s.supply ≠ .cold) (h : s.timebase.state = .starting) :
    s.crystalGap = s.setTimebase .failed := by
  unfold State.crystalGap
  rw [if_neg hc, h]

theorem State.crystalGap_running (hc : s.supply ≠ .cold) (h : s.timebase.state = .running) :
    s.crystalGap = (s.setTimebase .failed).leaveRunning := by
  unfold State.crystalGap
  rw [if_neg hc, h]

theorem State.leaveRunning_invalid (hv : s.clock.valid = false) : s.leaveRunning = s :=
  if_neg (by rw [hv]; exact Bool.false_ne_true)

theorem State.leaveRunning_normal (hs : s.supply = .normal) (hv : s.clock.valid = true) : s.leaveRunning = s.loseValidity := by
  unfold State.leaveRunning
  rw [if_pos hv, if_pos hs]

theorem State.leaveRunning_backup (hs : s.supply = .backup) (hv : s.clock.valid = true) :
    s.leaveRunning = s.loseValidityOnBackup := by
  unfold State.leaveRunning
  rw [if_pos hv, if_neg (by rw [hs]; decide)]

/-! ### The loss of validity (R66, R110, R153) -/

theorem Entry.leaveActive_eq_ended (e : Entry) (state : EntryState) : e.leaveActive state = e.ended state := rfl

theorem State.running_of_normal (hs : s.supply = .normal) : s.running = !s.inReset := by
  unfold State.running
  simp [hs]

/-- Settles O50. -/
theorem crystalMovesTimebase : Obligations.CrystalMovesTimebase := by
  unfold Obligations.CrystalMovesTimebase
  refine ⟨fun s hc h => congrArg Host.Outcome.next (State.crystalEdge_starts hc h),
    fun s hc h => ⟨congrArg Host.Outcome.next (State.crystalTrusted_runs hc h),
      congrArg Host.Outcome.next (State.crystalGap_starting hc h)⟩,
    fun s hc h hv => congrArg Host.Outcome.next ((State.crystalGap_running hc h).trans (State.leaveRunning_invalid hv)),
    fun s hs h hv => congrArg Host.Outcome.next ((State.crystalGap_running (by rw [hs]; decide) h).trans
      (State.leaveRunning_backup hs hv)), fun s hs h hv => ?_⟩
  have hgap : s.crystalGap = (s.setTimebase .failed).loseValidity :=
    (State.crystalGap_running (by rw [hs]; decide) h).trans (State.leaveRunning_normal hs hv)
  obtain ⟨channels, pulse, heq, hchannels⟩ := (s.setTimebase .failed).loseValidity_eq
  rw [show (s.setTimebase .failed).running = !s.inReset from State.running_of_normal hs] at heq
  refine ⟨_, congrArg Host.Outcome.next (hgap.trans heq), ?_, fun c => ⟨?_, ?_, ?_⟩, fun i he => ?_, fun i e he =>
    ⟨fun ha => ?_, fun ha => ?_⟩⟩
  · by_cases hi : s.inReset = true
    · rw [if_pos hi, if_neg (show ¬(!s.inReset) = true by rw [hi]; exact Bool.false_ne_true)]
      rfl
    · rw [if_neg hi, if_pos (show (!s.inReset) = true by rw [Bool.eq_false_iff.2 hi]; rfl)]
      rfl
  · simp [State.list]
  · simp [State.lastTop]
  · exact (hchannels c).trans (ChannelRun.takeTarget_eq_told _ _ _)
  · exact (State.withTable_map_slot s Slot.disarm i).trans (Slot.disarm_none he)
  · exact (State.withTable_map_slot s Slot.disarm i).trans ((Slot.disarm_some he).trans (if_neg ha))
  · exact (State.withTable_map_slot s Slot.disarm i).trans ((Slot.disarm_some he).trans (if_pos ha))

end Sys2Proof.Machine
end

section
/-! PROOFS. The main reset, the restart and the supplies (O51, O52; chapter 10). -/

namespace Sys2Proof.Machine

variable {s : State} {x : Slot} {e : Entry}

/-! ### What the restart makes of a slot (R182, R183) -/

/-- A slot after the restart, the clock being VALID or not. -/
def Slot.restarted (x : Slot) (valid : Bool) : Slot :=
  if valid then x.freeSpent.markRestart else x.freeSpent.disarm

theorem Slot.restarted_none (h : x.entry = none) (valid : Bool) : x.restarted valid = x := by
  unfold Slot.restarted
  rw [Slot.freeSpent_none h, Slot.markRestart_none h, Slot.disarm_none h, ite_self]

theorem Slot.restarted_freed (h : x.entry = some e) (hs : e.state = .spent) (hf : e.defn.autofree = true) (valid : Bool) :
    x.restarted valid = { gen := x.gen + 1, entry := none } := by
  have hfreed : x.freeSpent = { gen := x.gen + 1, entry := none } := (Slot.freeSpent_some h).trans (if_pos ⟨hs, hf⟩)
  unfold Slot.restarted
  rw [hfreed, Slot.markRestart_none rfl, Slot.disarm_none rfl, ite_self]

theorem Slot.freeSpent_kept (h : x.entry = some e) (hs : e.state ≠ .spent ∨ e.defn.autofree = false) : x.freeSpent = x := by
  rw [Slot.freeSpent_some h]
  refine if_neg fun ⟨hspent, hfree⟩ => ?_
  rcases hs with hs | hs
  · exact hs hspent
  · rw [hfree] at hs
    cases hs

theorem Slot.restarted_active (h : x.entry = some e) (ha : e.state = .active) (valid : Bool) :
    x.restarted valid =
      if valid then { gen := x.gen, entry := some { e with interrupted := true } }
      else { gen := x.gen + 1, entry := some (e.ended .armed) } := by
  unfold Slot.restarted
  rw [Slot.freeSpent_kept h (.inl (by rw [ha]; decide)), Slot.markRestart_some h, Slot.disarm_some h, if_pos ha, if_pos ha,
    Entry.leaveActive_eq_ended]

theorem Slot.restarted_kept (h : x.entry = some e)
    (hs : e.state = .armed ∨ e.state = .suspended ∨ e.state = .spent ∧ e.defn.autofree = false) (valid : Bool) :
    x.restarted valid = x := by
  have hkept : e.state ≠ .spent ∨ e.defn.autofree = false := by
    rcases hs with hs | hs | ⟨-, hs⟩
    · exact .inl (by rw [hs]; decide)
    · exact .inl (by rw [hs]; decide)
    · exact .inr hs
  have hinactive : e.state ≠ .active := by
    rcases hs with hs | hs | ⟨hs, -⟩
    · rw [hs]; decide
    · rw [hs]; decide
    · rw [hs]; decide
  unfold Slot.restarted
  rw [Slot.freeSpent_kept h hkept, Slot.markRestart_some h, Slot.disarm_some h, if_neg hinactive, if_neg hinactive, ite_self]

/-! ### The end of a main reset (R28, R147, R181 to R183) -/

/-- The state after a main reset, with the tables and units that the restart changes. -/
def State.restartedAs (s : State) (adsel : Bool) (dates : DateSet) (engine : Engine) (attention : Attention) : State :=
  { s with
    inReset := false
    inputs := s.pins.inputs.map InputRun.atLevel
    panelBus := { s.panelBus with address := panelAddress adsel }
    dates := dates
    table := s.table.map fun x => x.restarted s.clock.valid
    engine := engine
    attention := attention }

theorem State.restartedAs_slot (adsel : Bool) (dates : DateSet) (engine : Engine) (attention : Attention) (i : SlotNo) :
    (s.restartedAs adsel dates engine attention).slot i = (s.slot i).restarted s.clock.valid :=
  State.withTable_map_slot s (fun x => x.restarted s.clock.valid) i

theorem State.restartedAs_input (adsel : Bool) (dates : DateSet) (engine : Engine) (attention : Attention) (k : InputNo) :
    (s.restartedAs adsel dates engine attention).input k = InputRun.atLevel s.pins.inputs[k] := by
  simp [State.restartedAs, State.input]

theorem State.endReset_of_invalid (hv : s.clock.valid = false) (adsel : Bool) :
    ∃ pulse, s.endReset adsel =
      s.restartedAs adsel { s.dates with today := dayClassOf s.dates.records s.clock.date } s.engine
        { s.attention with invalidCause := true, pulse := pulse } := by
  obtain ⟨pulse, heq⟩ := State.restart_of_invalid (s := s.released adsel) hv
  have htable : (s.table.map Slot.freeSpent).map Slot.disarm = s.table.map fun x => x.restarted s.clock.valid := by
    rw [hv, Vector.map_map]
    rfl
  refine ⟨pulse, ?_⟩
  rw [State.endReset_eq, heq, State.released_table, htable]
  rfl

theorem State.endReset_of_valid (hv : s.clock.valid = true) (adsel : Bool) :
    s.endReset adsel =
      s.restartedAs adsel (s.dates.boundaryAt true s.clock.date) (s.engine.resyncAt s.clock.moment) s.attention := by
  have htable : (s.table.map Slot.freeSpent).map Slot.markRestart = s.table.map fun x => x.restarted s.clock.valid := by
    rw [hv, Vector.map_map]
    rfl
  rw [State.endReset_eq, State.restart_of_valid (s := s.released adsel) hv, State.released_table, htable]
  rfl

/-- The end of a main reset: what it makes of the dates, the engine and the attention unit is split by the clock's validity. -/
theorem State.endReset_as (s : State) (adsel : Bool) :
    ∃ dates engine invalidCause pulse,
      s.endReset adsel =
        s.restartedAs adsel dates engine { s.attention with invalidCause := invalidCause, pulse := pulse } ∧
      dates.today = dayClassOf dates.records s.clock.date ∧
      (s.clock.valid = false →
        invalidCause = true ∧ dates = { s.dates with today := dayClassOf s.dates.records s.clock.date } ∧ engine = s.engine) ∧
      (s.clock.valid = true →
        invalidCause = s.attention.invalidCause ∧ pulse = s.attention.pulse ∧
          dates.records = s.dates.records.filter (fun r => !r.date.before s.clock.date) ∧
          engine = s.engine.resyncAt s.clock.moment) := by
  cases hv : s.clock.valid with
  | false =>
    obtain ⟨pulse, heq⟩ := State.endReset_of_invalid hv adsel
    exact ⟨_, _, _, pulse, heq, rfl, fun _ => ⟨rfl, rfl, rfl⟩, nofun⟩
  | true =>
    exact ⟨_, _, _, _, State.endReset_of_valid hv adsel, rfl, nofun, fun _ => ⟨rfl, rfl, rfl, rfl⟩⟩

theorem Engine.resyncAt_free {e : Engine} (h : e.wipe = none) (t : Moment) :
    e.resyncAt t = { e with work := .resync t (skippedInterval e.lastEvaluated t) 0, resyncRequested := false } := by
  unfold Engine.resyncAt
  rw [h]
  rfl

/-! ### The beginning of a main reset (R25, R112, R133) -/

theorem ChannelRun.afterReset_eq (cfg : ChannelConfig) :
    ∃ proof ticks, ChannelRun.afterReset cfg =
      { ChannelRun.outOfService cfg (if cfg.enabled then .normal else .disabled) .idle with
        proof := proof, proofTicks := ticks } := by
  unfold ChannelRun.afterReset
  cases he : cfg.enabled with
  | false => exact ⟨_, _, rfl⟩
  | true =>
    rw [if_pos rfl]
    unfold ChannelRun.restartProof
    split
    · exact ⟨_, _, rfl⟩
    · exact ⟨_, _, rfl⟩

theorem Slot.clearHeld_gen (x : Slot) : x.clearHeld.gen = x.gen := by
  cases h : x.entry with
  | none => rw [Slot.clearHeld_none h]
  | some e =>
    rw [Slot.clearHeld_some h]
    split <;> rfl

theorem Slot.clearHeld_entry (h : x.entry = some e) :
    x.clearHeld = { gen := x.gen, entry := some (if e.state = .active then { e with held := false } else e) } := by
  rw [Slot.clearHeld_some h]
  split
  · rfl
  · rw [← h]

theorem State.beginReset_lastTop (s : State) (c : Chan) : s.beginReset.lastTop c = none := by
  have h : s.beginReset.arbiter = Arbiter.reset := rfl
  unfold State.lastTop
  rw [h]
  simp [Arbiter.reset]

/-- Settles O51. -/
theorem mainResetAndRestart : Obligations.MainResetAndRestart := by
  unfold Obligations.MainResetAndRestart
  refine ⟨fun s hr => ?_, fun s adsel hs hi => ?_⟩
  · let u := s.withPins { s.pins with rstnLow := true }
    have hexec : exec .rstnLow s = .next u.beginReset := congrArg Host.Outcome.next (if_pos hr)
    refine ⟨_, hexec, rfl, rfl, rfl, rfl, rfl, rfl, rfl, rfl, rfl, rfl, rfl, fun c => ⟨u.beginReset_list c, ?_, ?_⟩, rfl, rfl,
      rfl, rfl, fun i => ?_, fun i e he => ?_⟩
    · exact u.beginReset_lastTop c
    · obtain ⟨proof, ticks, hrun⟩ := ChannelRun.afterReset_eq (u.config c)
      rw [State.beginReset_channel, hrun]
      exact ⟨rfl, rfl, rfl, rfl, rfl⟩
    · rw [State.beginReset_slot]
      exact ⟨Slot.clearHeld_gen _, fun hn => by rw [Slot.clearHeld_none (x := u.slot i) hn]; exact hn⟩
    · rw [State.beginReset_slot, Slot.clearHeld_entry (x := u.slot i) he]
  · let u := s.withPins { s.pins with rstnLow := false }
    have hexec : exec (.mainResetEnd adsel) s = .next (u.endReset adsel) :=
      congrArg Host.Outcome.next (if_pos (by rw [hs, hi]; rfl))
    obtain ⟨dates, engine, invalidCause, pulse, heq, htoday, hinvalid, hvalid⟩ := u.endReset_as adsel
    refine ⟨_, hexec.trans (congrArg Host.Outcome.next heq), ?_, rfl, fun k => State.restartedAs_input (s := u) _ _ _ _ k, rfl, rfl,
      fun i he => ?_, fun i e he => ⟨fun hspent hfree => ?_, fun ha => ?_, fun hkept => ?_⟩, fun hv => ?_, fun hv hw => ?_⟩
    · exact State.running_of_normal hs
    · rw [State.restartedAs_slot]
      exact Slot.restarted_none he _
    · rw [State.restartedAs_slot]
      exact Slot.restarted_freed he hspent hfree _
    · rw [State.restartedAs_slot]
      exact Slot.restarted_active he ha _
    · rw [State.restartedAs_slot]
      exact Slot.restarted_kept he hkept _
    · exact hinvalid hv
    · obtain ⟨rfl, rfl, hrecords, hengine⟩ := hvalid hv
      exact ⟨rfl, hrecords, htoday, hengine.trans (Engine.resyncAt_free hw _)⟩

end Sys2Proof.Machine
end

section
/-! PROOFS. The supplies (O52; chapter 10). -/

namespace Sys2Proof.Machine

variable {s : State}

/-! ### A cold start (R180) -/

theorem State.coldStart_config (s : State) (x : Supply) (c : Chan) : (s.coldStart x).config c = ChannelConfig.cold := by
  simp [State.coldStart, State.discardVolatile, State.config]

theorem State.coldStart_binding (s : State) (x : Supply) (k : InputNo) : (s.coldStart x).binding k = Binding.cold := by
  simp [State.coldStart, State.discardVolatile, State.binding]

/-- Everything held is lost: what a cold start leaves of every kept item (R180). -/
theorem State.coldStart_loses (s : State) (x : Supply) :
    (s.coldStart x).supply = x ∧ (∀ i : SlotNo, (s.coldStart x).slot i = { gen := 0, entry := none }) ∧
      (s.coldStart x).clock = Clock.cold ∧ (s.coldStart x).timebase.state = .off ∧ (s.coldStart x).dates.records = [] ∧
      (∀ c : Chan, (s.coldStart x).config c = ChannelConfig.cold) ∧
      (∀ k : InputNo, (s.coldStart x).binding k = Binding.cold) ∧ (s.coldStart x).policy = 0 ∧
      (s.coldStart x).engine.lastEvaluated = none ∧ (s.coldStart x).pins = s.pins ∧
      (s.coldStart x).pending = s.pending :=
  ⟨rfl, s.coldStart_slot x, rfl, rfl, rfl, s.coldStart_config x, s.coldStart_binding x, rfl, rfl, rfl, rfl⟩

/-! ### The supplies as they come and go (R177 to R180) -/

theorem State.vmainLost_kept (hs : s.supply = .normal) (hv : s.pins.vbak = true) :
    s.vmainLost = { s with supply := .backup, inReset := false }.discardVolatile := by
  unfold State.vmainLost
  rw [hs]
  exact if_pos hv

theorem State.vmainLost_lost (hs : s.supply = .normal) (hv : s.pins.vbak = false) : s.vmainLost = s.coldStart .cold := by
  unfold State.vmainLost
  rw [hs]
  exact if_neg (by rw [hv]; exact Bool.false_ne_true)

theorem State.chPin_none (hs : s.supply ≠ .normal) (c : Chan) : s.chPin c = none := if_neg hs

theorem State.chPin_isSome (hs : s.supply = .normal) (c : Chan) : (s.chPin c).isSome = true := by
  unfold State.chPin
  rw [if_pos hs]
  rfl

theorem State.irqAsserted_of_not_running (hr : s.running = false) : s.irqAsserted = false := by
  unfold State.irqAsserted
  rw [hr, Bool.false_and]

theorem State.vmainReturns_backup (hs : s.supply = .backup) (adsel : Bool) : s.vmainReturns adsel = s.powerUp adsel := by
  unfold State.vmainReturns
  rw [hs]

theorem State.vmainReturns_cold (hs : s.supply = .cold) (adsel : Bool) :
    s.vmainReturns adsel = (s.coldStart .normal).powerUp adsel := by
  unfold State.vmainReturns
  rw [hs]

/-- The restart after a main reset that has cleared held. -/
theorem Slot.restarted_clearHeld {x : Slot} {e : Entry} (h : x.entry = some e) (valid : Bool) :
    (e.state = .spent → e.defn.autofree = true → x.clearHeld.restarted valid = { gen := x.gen + 1, entry := none }) ∧
      (e.state = .active →
        x.clearHeld.restarted valid =
          if valid then { gen := x.gen, entry := some { e with held := false, interrupted := true } }
          else { gen := x.gen + 1, entry := some (e.ended .armed) }) ∧
      (e.state = .armed ∨ e.state = .suspended ∨ e.state = .spent ∧ e.defn.autofree = false →
        x.clearHeld.restarted valid = x) := by
  have hinactive : e.state ≠ .active → x.clearHeld = x := fun hn => (Slot.clearHeld_some h).trans (if_neg hn)
  refine ⟨fun hs hf => ?_, fun ha => ?_, fun hs => ?_⟩
  · rw [hinactive (by rw [hs]; decide)]
    exact Slot.restarted_freed h hs hf valid
  · have hheld : x.clearHeld = { gen := x.gen, entry := some { e with held := false } } :=
      (Slot.clearHeld_some h).trans (if_pos ha)
    rw [hheld]
    exact Slot.restarted_active (e := { e with held := false }) rfl ha valid
  · rw [hinactive (by rcases hs with hs | hs | ⟨hs, -⟩ <;> rw [hs] <;> decide)]
    exact Slot.restarted_kept h hs valid

/-- The main reset that VMAIN's return on backup begins, while RSTN holds it (R181). -/
theorem State.powerUp_held (hl : s.pins.rstnLow = true) (adsel : Bool) : s.powerUp adsel = s.beginReset := if_pos hl

theorem State.powerUp_released (hl : s.pins.rstnLow = false) (adsel : Bool) :
    s.powerUp adsel = s.beginReset.endReset adsel :=
  if_neg (by rw [hl]; exact Bool.false_ne_true)

/-- Settles O52. -/
theorem suppliesMoveTheState : Obligations.SuppliesMoveTheState := by
  unfold Obligations.SuppliesMoveTheState
  refine ⟨fun s hs hv => ?_, fun s h => ?_, fun s adsel hs => ?_, fun s adsel hs => ?_, fun s hs => ?_, fun s hs => ⟨?_, ?_⟩⟩
  · let u := { s with supply := .backup, inReset := false }.discardVolatile
    have hexec : exec .vmainLost s = .next u := congrArg Host.Outcome.next (State.vmainLost_kept hs hv)
    exact ⟨u, hexec, rfl, rfl, rfl, rfl, rfl, rfl, rfl, rfl, rfl, rfl, rfl, rfl, rfl,
      fun c => ⟨State.discardVolatile_list _ c, State.chPin_none (s := u) nofun c⟩, rfl, rfl,
      State.irqAsserted_of_not_running rfl⟩
  · rcases h with ⟨hs, hv⟩ | hs
    · obtain ⟨h1, h2, h3, h4, h5, h6, h7, h8, h9, h10, h11⟩ := s.coldStart_loses .cold
      rw [if_pos hs]
      exact ⟨_, congrArg Host.Outcome.next (State.vmainLost_lost hs hv), h1, h2, h3, h4, h5, h6, h7, h8, h9, hv, h11⟩
    · let u := s.withPins { s.pins with vbak := false }
      obtain ⟨h1, h2, h3, h4, h5, h6, h7, h8, h9, h10, h11⟩ := u.coldStart_loses .cold
      have hexec : exec .vbakLost s = .next (u.coldStart .cold) := congrArg Host.Outcome.next (if_pos hs)
      rw [if_neg (by rw [hs]; decide)]
      exact ⟨_, hexec, h1, h2, h3, h4, h5, h6, h7, h8, h9, rfl, h11⟩
  · have hexec : exec (.vmainReturns adsel) s = .next (s.powerUp adsel) :=
      congrArg Host.Outcome.next (State.vmainReturns_backup hs adsel)
    cases hl : s.pins.rstnLow with
    | true =>
      rw [State.powerUp_held hl] at hexec
      refine ⟨_, hexec, rfl, rfl, rfl, rfl, rfl, rfl, rfl, rfl, rfl,
        fun c => ⟨s.beginReset_list c, State.chPin_isSome rfl c⟩, rfl, fun _ => ⟨rfl, rfl⟩, nofun, nofun, fun i he => ?_,
        fun i e he => ⟨fun _ => ?_, nofun⟩⟩
      · rw [State.beginReset_slot]
        exact Slot.clearHeld_none he
      · rw [State.beginReset_slot]
        exact Slot.clearHeld_entry he
    | false =>
      rw [State.powerUp_released hl] at hexec
      obtain ⟨dates, engine, invalidCause, pulse, heq, htoday, hinvalid, hvalid⟩ := s.beginReset.endReset_as adsel
      have hslot : ∀ i : SlotNo, (s.beginReset.endReset adsel).slot i = (s.slot i).clearHeld.restarted s.clock.valid := fun i => by
        rw [heq, State.restartedAs_slot, State.beginReset_slot]
        rfl
      rw [heq] at hexec hslot
      refine ⟨_, hexec, rfl, rfl, rfl, rfl, rfl, rfl, rfl, rfl, rfl,
        fun c => ⟨s.beginReset_list c, State.chPin_isSome rfl c⟩, htoday, fun h => ?_, fun _ hv => (hinvalid hv).1,
        fun _ hv => ?_, fun i he => ?_, fun i e he => ⟨nofun, fun _ => ?_⟩⟩
      · have hv : s.clock.valid = false := h.resolve_left Bool.false_ne_true
        obtain ⟨-, hdates, hengine⟩ := hinvalid hv
        subst hdates
        exact ⟨rfl, congrArg Engine.work hengine⟩
      · obtain ⟨-, -, hrecords, hengine⟩ := hvalid hv
        exact ⟨hrecords, congrArg Engine.work (hengine.trans (Engine.resyncAt_free rfl _))⟩
      · rw [hslot, Slot.clearHeld_none he]
        exact Slot.restarted_none he _
      · rw [hslot]
        exact Slot.restarted_clearHeld he _
  · have hexec : exec (.vmainReturns adsel) s = .next ((s.coldStart .normal).powerUp adsel) :=
      congrArg Host.Outcome.next (State.vmainReturns_cold hs adsel)
    rw [State.coldStart_powerUp] at hexec
    refine ⟨_, hexec, rfl, fun k => ?_, rfl, fun hl => ?_⟩
    · simp [State.input, InputRun.atLevel]
    · exact if_neg (by rw [hl]; exact Bool.false_ne_true)
  · let u := s.withPins { s.pins with vbak := true }
    obtain ⟨h1, h2, h3, h4, h5, h6, h7, h8, h9, h10, h11⟩ := u.coldStart_loses .backup
    have hexec : exec .vbakAppears s = .next (u.coldStart .backup) := congrArg Host.Outcome.next (if_pos hs)
    exact ⟨_, hexec, h1, h10, h2, h3, h4, h5, h8, h9⟩
  · exact congrArg Host.Outcome.next (if_neg (by rw [hs]; decide))
  · exact congrArg Host.Outcome.next (if_neg (by rw [hs]; decide))

end Sys2Proof.Machine
end
